-- ==== Sys2Proof/Word.lean ====
section
/-! DEFINITION. The widths the hub's frames, store and external memory are made of. -/

namespace Sys2Proof

/-- One byte of a frame, of a store line or of an external memory line. -/
abbrev Byte := BitVec 8

/-- One halfword of the external memory's 16-bit data bus (R71). -/
abbrev Halfword := BitVec 16

/-- The halfword whose low byte is the byte at the lower address (00 Conventions, R71). -/
abbrev Halfword.ofBytes (lo hi : Byte) : Halfword := hi ++ lo

end Sys2Proof
end

