-- ==== Sys2Proof/Syntax.lean ====
section
/-! DEFINITION. The commands of the OWH4: one constructor of `Instr` for each row of spec/opcode_table.json, the ports
they name, and the request kinds of the link frames (R173). -/

namespace Sys2Proof

/-- A host port and its link (00 Conventions: "port HLn" and "link HLn" name the same numbered thing). -/
inductive Port where
  | hl0 | hl1 | hl2 | hl3
  deriving DecidableEq, Repr

/-- The request kinds of R173. -/
inductive Kind where
  | seek | next | portSet | status | tableRead | noticeTake | claim | add | fill | remove | commit | abort | reload
  | portReset
  deriving DecidableEq, Repr

/-- The commands. A request command stands for the turnaround of a correct frame of that kind on the port's link, with the
payload fields of R175 at their frame widths; the others stand for the events that file 95 lists. -/
inductive Instr where
  /-- SEEK (R50): `line` is the 3-byte port line. -/
  | seek (p : Port) (line : BitVec 24)
  /-- NEXT (R53). -/
  | next (p : Port)
  /-- PORT_SET (R60): five 1-byte values. -/
  | portSet (p : Port) (level prefetch mask viewBase viewSize : Byte)
  /-- STATUS (R179). -/
  | status (p : Port)
  /-- TABLE_READ (R21). -/
  | tableRead (p : Port) (slot : Byte)
  /-- NOTICE_TAKE (R158). -/
  | noticeTake (p : Port)
  /-- CLAIM (R110): the wait flag byte. -/
  | claim (p : Port) (wait : Byte)
  /-- ADD (R118). -/
  | add (p : Port) (tag : BitVec 16) (matchLine : BitVec 24) (length scope : Byte) (contentSum : BitVec 16)
  /-- FILL (R120): `data` is the 32 data bytes, offset 0 first (WellFormed checks the length). -/
  | fill (p : Port) (slot index : Byte) (data : List Byte)
  /-- REMOVE (R121). -/
  | remove (p : Port) (slot : Byte)
  /-- COMMIT (R124). -/
  | commit (p : Port)
  /-- ABORT (R128). -/
  | abort (p : Port)
  /-- RELOAD (R151). -/
  | reload (p : Port)
  /-- PORT_RESET (R182). -/
  | portReset (p : Port)
  /-- BAD_FRAME (R168): the turnaround of a frame that fails check 1, 2 or 4. -/
  | badFrame (p : Port)
  /-- BAD_KIND (R168): the turnaround of an intact frame with an undefined kind code. -/
  | badKind (p : Port)
  /-- SELECT_ASSERTED (R166): a falling edge of HLn_SEL (R187). -/
  | selectAsserted (p : Port)
  /-- FRAME_DISCARDED (R169): select released before the turnaround. -/
  | frameDiscarded (p : Port)
  /-- RESPONSE_LOST (R172): select released during the response phase. -/
  | responseLost (p : Port)
  /-- DEVICE_RESET (R153). -/
  | deviceReset
  /-- RESET_END (R188): `straps` is the level read, DIRSEL1 as bit 1 and DIRSEL0 as bit 0. -/
  | resetEnd (straps : BitVec 2)
  /-- TIMEBASE_TICK (R98, R115). -/
  | timebaseTick
  /-- DRAIN_EXPIRY (R100). -/
  | drainExpiry
  /-- SESSION_EXPIRY (R116). -/
  | sessionExpiry
  /-- ACCESS_COMPLETES (R71, R189): `xd` is the halfword latched from XD0 to XD15. -/
  | accessCompletes (xd : Halfword)
  /-- READY_LIMIT_EXCEEDED (R72). -/
  | readyLimitExceeded
  /-- BYTE_RECEIVED (R167): the two samples of HLn_D0 to HLn_D3 that make the byte, bits 0 to 3 first (R187). -/
  | byteReceived (p : Port) (firstSample secondSample : BitVec 4)
  /-- BYTE_SENT (R172). -/
  | byteSent (p : Port)
  /-- SELECT_RELEASED (R166): a rising edge of HLn_SEL (R187). -/
  | selectReleased (p : Port)
  deriving DecidableEq, Repr

end Sys2Proof
end

