-- ==== Sys2Proof/Decode.lean ====
section
/-! DEFINITION. Words of spec/opcode_table.json. The table gives no row any bits (every row's "fields" is empty), so no
word spells a command (log entry 24). The bytes of the link frames are read in Machine/Operands.lean and Machine/Link.lean,
since the hub reads them at the turnaround (R168). -/

namespace Sys2Proof

/-- The command a table word spells: none, since the table gives no row any bits. -/
def decodeTableWord (_nbits _w : Nat) : Option Instr := none

end Sys2Proof
end

