-- ==== Sys2Proof/Config.lean ====
section
/-! DEFINITION. The fixed quantities of the OWH4 (00_scope, Fixed quantities) and the one free value the manual
leaves: what an unspecified byte of the overlay store holds. -/

namespace Sys2Proof.Config

/-- Overlay table slots (R1). -/
abbrev tableSlots : Nat := 64
/-- Longest entry, in lines (R1). -/
abbrev maxLength : Nat := 64
/-- Overlay store lines (R24). -/
abbrev storeLines : Nat := 2048
/-- Bytes in a line (00 Conventions). -/
abbrev lineBytes : Nat := 32
/-- Bytes of the overlay store, 64 KiB (R24). -/
abbrev storeBytes : Nat := 65536
/-- Physical lines of the external code memory (00 Conventions). -/
abbrev physicalLines : Nat := 524288
/-- Lines of one 64 KiB view unit (R43). -/
abbrev unitLines : Nat := 2048
/-- Most 64 KiB units a view may reach (R44). -/
abbrev viewUnits : Nat := 256
/-- Op list bound (R109). -/
abbrev maxOps : Nat := 16
/-- Notice queue bound (R156). -/
abbrev maxNotices : Nat := 8
/-- Pass count at which a request ages to level 0 (R68, R69). -/
abbrev agingThreshold : Nat := 8
/-- Bytes of a request frame that are kept (R167). -/
abbrev keptBytes : Nat := 36
/-- Halfword accesses of one line read (R71). -/
abbrev accessesPerLine : Nat := 16
/-- Ticks in one unit of the drain and session idle limits (R98, R115). -/
abbrev ticksPerUnit : Nat := 10
/-- The greatest generation number (R86). -/
abbrev maxGeneration : Nat := 65535
/-- Where the external memory fault counter stays (R79). -/
abbrev maxFaults : Nat := 65535
/-- Where a link error counter stays (R170). -/
abbrev maxLinkErrors : Nat := 255

/-- FREE VALUE (log entry 1): what the store byte at `address` holds while its content is unspecified (R9, R26, R33),
in the `epoch`-th interval since power-on in which the content became unspecified. -/
opaque unwrittenStoreByte (epoch address : Nat) : Byte

end Sys2Proof.Config
end

