-- ==== Sys2Proof/Machine/State.lean ====
section
/-! DEFINITION. Everything the spec gives the OWH4, as plain data, block by block in the spec's order, and its value at
reset. The rule named at a field is the one that names that piece of state. -/

namespace Sys2Proof.Machine

/-- One value for each port. -/
structure PerPort (α : Type) where
  hl0 : α
  hl1 : α
  hl2 : α
  hl3 : α
  deriving DecidableEq, Repr

/-- The two line slots of a stream unit as places; which of them is the delivery slot is held beside them (R65). -/
inductive SlotId where
  | a | b
  deriving DecidableEq, Repr

/-- One value for each line slot of a port. -/
structure PerSlot (α : Type) where
  a : α
  b : α
  deriving DecidableEq, Repr

/-! ### Stream units -/

/-- Where a slot's line came from (R42). -/
inductive Source where
  | overlay | memory
  deriving DecidableEq, Repr

/-- A line slot (R42): the fields present in each slot state. A WAITING or FAULTED slot has source MEMORY (R42). -/
inductive LineSlot where
  | empty
  | waiting (portLine : Nat)
  | ready (portLine : Nat) (source : Source) (data : List Byte)
  | faulted (portLine : Nat)
  deriving DecidableEq, Repr

/-- The stream state (R40); STALE alone holds the close line (R41). -/
inductive StreamState where
  | idle
  | streaming
  | locked
  | stale (closeLine : Nat)
  deriving DecidableEq, Repr

/-- The port settings a stream unit holds (R39, R44). -/
structure Settings where
  viewBase : Nat
  viewSize : Nat
  level : Nat
  prefetch : Bool
  deriving DecidableEq, Repr

/-- A stream unit (R39). -/
structure StreamUnit where
  state : StreamState
  counter : Nat
  slots : PerSlot LineSlot
  /-- The slot in the delivery role (R49, R65). -/
  delivery : SlotId
  settings : Settings
  deriving DecidableEq, Repr

/-! ### External memory controller -/

/-- A request of the set (R65); its requester is the place it stands in (`Xmc`). -/
structure Request where
  line : Nat
  level : Nat
  passes : Nat
  deriving DecidableEq, Repr

/-- Where a read's result is delivered (R65). -/
inductive Requester where
  | slot (p : Port) (k : SlotId)
  | loader
  deriving DecidableEq, Repr

/-- The read in flight (R67): the completed accesses are held with the halfwords they returned (R71). -/
structure Read where
  requester : Requester
  line : Nat
  halfwords : List Halfword
  orphan : Bool
  deriving DecidableEq, Repr

/-- The external memory controller: at most one request for each line slot and one for the loader (R65). -/
structure Xmc where
  slotRequests : PerPort (PerSlot (Option Request))
  loaderRequest : Option Request
  inFlight : Option Read
  /-- The round-robin pointer (R68). -/
  pointer : Port
  faults : Nat
  lastFault : Nat
  deriving DecidableEq, Repr

/-! ### Overlay table and overlay store -/

/-- Who created an entry (R4). -/
inductive Origin where
  | loader
  | port (p : Port)
  deriving DecidableEq, Repr

/-- The fields every entry that is not FREE has (R1). Bit n of the scope stands for port HLn. -/
structure EntryFields where
  tag : BitVec 16
  matchLine : Nat
  length : Nat
  scope : BitVec 4
  storeLine : Nat
  origin : Origin
  contentSum : BitVec 16
  deriving DecidableEq, Repr

/-- An entry slot's record: each state has the fields R1 lists as present in it. The fill map is held in ascending order. -/
inductive Entry where
  | free
  | staged (fields : EntryFields) (fillMap : List Nat)
  | live (fields : EntryFields) (born : Nat) (mark : Bool)
  | retiring (fields : EntryFields) (born : Nat)
  deriving DecidableEq, Repr

/-- A run of store lines (R25). -/
structure Extent where
  start : Nat
  length : Nat
  deriving DecidableEq, Repr

/-- The overlay store's bytes by address (32 x line + offset), addresses strictly rising; an unlisted address holds
unspecified content (log entry 1). -/
abbrev Memory := List Host.Cell

/-- The overlay store (R24, R25). -/
structure Store where
  freeList : List Extent
  content : Memory
  /-- The model's own field: which interval of unspecified content this is (log entry 1). -/
  epoch : Nat
  deriving DecidableEq, Repr

/-! ### Generation control and edit controller -/

/-- A running timer (R98, R115): ticks elapsed, and the limit in units of 10 ms that it was started with. -/
structure Timer where
  elapsed : Nat
  limit : Nat
  deriving DecidableEq, Repr

/-- Generation control (R85). A binding is none or a generation number. -/
structure GenControl where
  current : Nat
  superseded : Option Nat
  bindings : PerPort (Option Nat)
  drainTimer : Option Timer
  deriving DecidableEq, Repr

/-- An op of the op list (R109). -/
inductive Op where
  | add (slot : Nat)
  | remove (slot : Nat)
  deriving DecidableEq, Repr

/-- An OPEN session (R106). -/
structure Session where
  owner : Port
  idleTimer : Timer
  ops : List Op
  deriving DecidableEq, Repr

/-- The edit controller (R106): no session is the state NONE. -/
structure EditControl where
  session : Option Session
  claimQueue : List Port
  deriving DecidableEq, Repr

/-! ### Directory loader -/

/-- The values the port defaults record holds for one port (R135). -/
structure PortDefaults where
  settings : Settings
  mask : BitVec 5
  deriving DecidableEq, Repr

/-- The port defaults record, and the pending record of the same fields (R135). -/
structure Defaults where
  ports : PerPort PortDefaults
  drainLimit : Nat
  idleLimit : Nat
  deriving DecidableEq, Repr

/-- The result of a load (R147). -/
inductive LoadResult where
  | complete | partialLoad | none
  deriving DecidableEq, Repr

/-- The header cause (R147). -/
inductive HeaderCause where
  | pending | ok | headerFault | noSignature | badVersion | badHeaderSum | badCount | badPortField
  deriving DecidableEq, Repr

/-- The skip causes (R147). -/
inductive SkipCause where
  | recordFault | badRecordSum | badField | overlap | noSpace | contentFault | contentSum
  deriving DecidableEq, Repr

/-- The load report (R147). -/
structure LoadReport where
  result : LoadResult
  headerCause : HeaderCause
  placed : Nat
  skipped : Nat
  firstSkip : Option (Nat × SkipCause)
  tag : BitVec 16
  deriving DecidableEq, Repr

/-- The fields of a directory record that the loader holds while it copies the content (R141). -/
structure DirRecord where
  matchLine : Nat
  sourceLine : Nat
  length : Nat
  scope : BitVec 4
  tag : BitVec 16
  contentSum : BitVec 16
  deriving DecidableEq, Repr

/-- Which line the loader waits for (R136): none, the header, a record line, or content line `index` of a record whose
chosen store line is `chosen` (R143, R144). -/
inductive LoaderStep where
  | idle
  | header
  | record
  | copy (record : DirRecord) (chosen index : Nat)
  deriving DecidableEq, Repr

/-- The directory loader (R135). -/
structure Loader where
  ready : Bool
  dirsel : BitVec 2
  report : LoadReport
  defaults : Defaults
  pendingRecord : Option Defaults
  recordIndex : Nat
  /-- The header's record count, held while records are processed (R136). -/
  recordCount : Nat
  step : LoaderStep
  deriving DecidableEq, Repr

/-! ### Notice units and host links -/

/-- A notice with the fields of its kind (R155). -/
inductive Notice where
  | loadDone (generation : Nat) (result : LoadResult) (placed skipped : Nat)
  | committed (generation firstLine lastLine : Nat)
  | streamStale (generation counterLine : Nat)
  | sessionGranted (generation : Nat)
  | sessionExpired (generation : Nat)
  deriving DecidableEq, Repr

/-- A notice unit (R156, R161); the head of the list is the oldest notice. -/
structure NoticeUnit where
  queue : List Notice
  overflow : Bool
  mask : BitVec 5
  deriving DecidableEq, Repr

/-- The framing phase of a link (R166), with what each phase holds (R167, R172). -/
inductive Phase where
  | idle
  | request (count : Nat) (sum : Byte) (kept : List Byte)
  | response (unsent : List Byte)
  | done
  deriving DecidableEq, Repr

/-- A host link (R166). -/
structure HostLink where
  phase : Phase
  errors : Nat
  /-- The host holds HLn_SEL asserted (R184, R187). -/
  selected : Bool
  /-- The model's own field: the two nibbles the host took for the byte last sent in this exchange, bits 0 to 3 before bits
  4 to 7 (R187, log entry 18). -/
  lastSent : Option (BitVec 4 × BitVec 4)
  deriving DecidableEq, Repr

/-! ### The whole block -/

/-- Why a step stops. -/
inductive Fault where
  /-- Raised by SEEK, NEXT, FILL, COMMIT and a content write of the loader when the extent of an entry, or the extent the
  loader writes, reaches past store line 2047 (it breaks the fourth condition of R2): that store line does not exist.
  Safe: no run from reset reaches such a state (log entry 2). -/
  | outsideStore
  deriving DecidableEq, Repr

/-- Why a command has no meaning. -/
inductive Refusal where
  /-- Reserved for an arm of `exec` without a meaning; every command has one, so nothing raises it. Safe. -/
  | notModelled (mnemonic : String)
  deriving DecidableEq, Repr

/-- The state of the OWH4 and the queue of the commands that wait. -/
structure State where
  streams : PerPort StreamUnit
  xmc : Xmc
  table : List Entry
  store : Store
  gen : GenControl
  edit : EditControl
  loader : Loader
  notices : PerPort NoticeUnit
  links : PerPort HostLink
  /-- A device reset is in progress (R153). -/
  inReset : Bool
  pending : List Instr
  deriving DecidableEq, Repr

/-! ### Reset values -/

/-- The settings after a device reset (R44, first row). -/
abbrev Settings.reset : Settings := ⟨0, 256, 1, true⟩

/-- A closed stream unit with its reset settings (R64); the slot in the delivery role is slot a (log entry 10). -/
abbrev StreamUnit.reset : StreamUnit := ⟨.idle, 0, ⟨.empty, .empty⟩, .a, Settings.reset⟩

/-- The controller after a device reset (R82). -/
abbrev Xmc.reset : Xmc :=
  ⟨⟨⟨none, none⟩, ⟨none, none⟩, ⟨none, none⟩, ⟨none, none⟩⟩, none, none, .hl3, 0, 0⟩

/-- Every slot FREE (R23). -/
abbrev emptyTable : List Entry := List.replicate Config.tableSlots .free

/-- The free extent list after a device reset or RELOAD (R26). -/
abbrev fullFreeList : List Extent := [⟨0, Config.storeLines⟩]

/-- Generation control after a device reset or RELOAD (R103, R104). -/
abbrev GenControl.reset : GenControl := ⟨1, none, ⟨none, none, none, none⟩, none⟩

/-- The edit controller after a device reset or RELOAD (R132). -/
abbrev EditControl.reset : EditControl := ⟨none, []⟩

/-- The built-in defaults (R140, R153). -/
abbrev Defaults.builtIn : Defaults :=
  let d : PortDefaults := ⟨Settings.reset, 0x1F⟩
  ⟨⟨d, d, d, d⟩, 5, 20⟩

/-- The load report at the start of a load (R147). -/
abbrev LoadReport.cleared : LoadReport := ⟨.none, .pending, 0, 0, none, 0⟩

/-- A notice unit after a device reset (R165). -/
abbrev NoticeUnit.reset : NoticeUnit := ⟨[], false, 0x1F⟩

/-- The machine while the first device reset lasts (R153, log entry 9): RESET_END is the event that ends it. The sampled
DIRSEL and the select pins have no value in the spec (log entries 7 and 8). -/
def State.reset : State where
  streams := ⟨StreamUnit.reset, StreamUnit.reset, StreamUnit.reset, StreamUnit.reset⟩
  xmc := Xmc.reset
  table := emptyTable
  store := ⟨fullFreeList, [], 0⟩
  gen := GenControl.reset
  edit := EditControl.reset
  loader := ⟨false, 0, LoadReport.cleared, Defaults.builtIn, none, 0, 0, .idle⟩
  notices := ⟨NoticeUnit.reset, NoticeUnit.reset, NoticeUnit.reset, NoticeUnit.reset⟩
  links := ⟨⟨.idle, 0, false, none⟩, ⟨.idle, 0, false, none⟩, ⟨.idle, 0, false, none⟩, ⟨.idle, 0, false, none⟩⟩
  inReset := true
  pending := []

end Sys2Proof.Machine
end

