-- ==== Sys2Proof/Machine/Ops.lean ====
section
/-! DEFINITION. Reading and writing the state: one value per port, one per line slot, one named update for each field of
State, and the store's bytes. Every other operation is built from these. -/

namespace Sys2Proof.Machine

/-! ### Ports and slots -/

/-- The value of port `p`. -/
def PerPort.get {α : Type} (v : PerPort α) : Port → α
  | .hl0 => v.hl0
  | .hl1 => v.hl1
  | .hl2 => v.hl2
  | .hl3 => v.hl3

/-- The values with port `p`'s replaced. -/
def PerPort.set {α : Type} (v : PerPort α) (p : Port) (x : α) : PerPort α :=
  match p with
  | .hl0 => { v with hl0 := x }
  | .hl1 => { v with hl1 := x }
  | .hl2 => { v with hl2 := x }
  | .hl3 => { v with hl3 := x }

/-- The same computation for each port. -/
def PerPort.tabulate {α : Type} (f : Port → α) : PerPort α :=
  ⟨f .hl0, f .hl1, f .hl2, f .hl3⟩

/-- The value of slot `k`. -/
def PerSlot.get {α : Type} (v : PerSlot α) : SlotId → α
  | .a => v.a
  | .b => v.b

/-- The values with slot `k`'s replaced. -/
def PerSlot.set {α : Type} (v : PerSlot α) (k : SlotId) (x : α) : PerSlot α :=
  match k with
  | .a => { v with a := x }
  | .b => { v with b := x }

/-- The other slot of the port. -/
def SlotId.other : SlotId → SlotId
  | .a => .b
  | .b => .a

/-- The number n of port HLn. -/
def portIndex : Port → Nat
  | .hl0 => 0
  | .hl1 => 1
  | .hl2 => 2
  | .hl3 => 3

/-- The ports in the order HL0 to HL3. -/
abbrev allPorts : List Port := [.hl0, .hl1, .hl2, .hl3]

/-- The port after `p` in the order HL0, HL1, HL2, HL3, HL0 (R68). -/
def nextPort : Port → Port
  | .hl0 => .hl1
  | .hl1 => .hl2
  | .hl2 => .hl3
  | .hl3 => .hl0

/-- Whether a scope contains port HLn: bit n is set (R175). -/
def inScope (scope : BitVec 4) (p : Port) : Bool := scope.getLsbD (portIndex p)

/-! ### Named updates of State -/

/-- Replace the stream units. -/
def State.putStreams (s : State) (x : PerPort StreamUnit) : State := { s with streams := x }
/-- Replace the external memory controller. -/
def State.putXmc (s : State) (x : Xmc) : State := { s with xmc := x }
/-- Replace the overlay table. -/
def State.putTable (s : State) (x : List Entry) : State := { s with table := x }
/-- Replace the overlay store. -/
def State.putStore (s : State) (x : Store) : State := { s with store := x }
/-- Replace generation control. -/
def State.putGen (s : State) (x : GenControl) : State := { s with gen := x }
/-- Replace the edit controller. -/
def State.putEdit (s : State) (x : EditControl) : State := { s with edit := x }
/-- Replace the loader. -/
def State.putLoader (s : State) (x : Loader) : State := { s with loader := x }
/-- Replace the notice units. -/
def State.putNotices (s : State) (x : PerPort NoticeUnit) : State := { s with notices := x }
/-- Replace the host links. -/
def State.putLinks (s : State) (x : PerPort HostLink) : State := { s with links := x }
/-- Set whether a device reset is in progress. -/
def State.putInReset (s : State) (x : Bool) : State := { s with inReset := x }
/-- Replace the queue of waiting commands. -/
def State.putPending (s : State) (x : List Instr) : State := { s with pending := x }

/-- Replace port `p`'s stream unit. -/
def State.putStream (s : State) (p : Port) (x : StreamUnit) : State := s.putStreams (s.streams.set p x)
/-- Replace port `p`'s notice unit. -/
def State.putNotice (s : State) (p : Port) (x : NoticeUnit) : State := s.putNotices (s.notices.set p x)
/-- Replace port `p`'s host link. -/
def State.putLink (s : State) (p : Port) (x : HostLink) : State := s.putLinks (s.links.set p x)

/-! ### The overlay store's bytes -/

/-- The byte an address holds, `none` where nothing has written it. -/
def Memory.find (a : Nat) : Memory → Option Byte
  | [] => none
  | c :: m => if c.1 = a then some c.2 else Memory.find a m

/-- The byte at an address: what was last written, else the free value of unspecified content (log entry 1). -/
def Memory.read (epoch : Nat) (m : Memory) (a : Nat) : Byte :=
  (Memory.find a m).getD (Config.unwrittenStoreByte epoch a)

/-- Write one byte, keeping the addresses rising. -/
def Memory.write (a : Nat) (b : Byte) : Memory → Memory
  | [] => [(a, b)]
  | c :: m => if a < c.1 then (a, b) :: c :: m else if a = c.1 then (a, b) :: m else c :: Memory.write a b m

/-- Write bytes at rising addresses from `a`. -/
def Memory.writeBytes (a : Nat) : List Byte → Memory → Memory
  | [], m => m
  | b :: bs, m => Memory.writeBytes (a + 1) bs (Memory.write a b m)

/-- The addresses rise strictly. -/
def Memory.rising : Memory → Bool
  | [] => true
  | [_] => true
  | c :: d :: m => decide (c.1 < d.1) && Memory.rising (d :: m)

/-- The one canonical form: addresses strictly rising, all inside the store. An unlisted address has no value of its own
(it reads as a free value), so no entry can equal it. -/
def Memory.wf (m : Memory) : Bool := Memory.rising m && m.all (fun c => decide (c.1 < Config.storeBytes))

/-- The byte at offset `i` of store line `n` (R24). -/
def Store.byte (st : Store) (n i : Nat) : Byte := Memory.read st.epoch st.content (Config.lineBytes * n + i)

/-- The 32 bytes of store line `n` (R24, R34). -/
def Store.readLine (st : Store) (n : Nat) : List Byte := (List.range Config.lineBytes).map (st.byte n)

/-- Write a line's bytes into store line `n`, the first at offset 0 (R31, R32). -/
def Store.writeLine (st : Store) (n : Nat) (data : List Byte) : Store :=
  { st with content := Memory.writeBytes (Config.lineBytes * n) data st.content }

/-- The halfwords of a run of bytes, each with its first byte as the low byte (R35). -/
def halfwordsOf : List Byte → List Halfword
  | lo :: hi :: rest => Halfword.ofBytes lo hi :: halfwordsOf rest
  | _ => []

/-- The sum of a run of bytes taken as halfwords, modulo 65536 (00 Conventions, R138, R141). -/
def halfwordSum (bytes : List Byte) : BitVec 16 := (halfwordsOf bytes).sum

/-- The content sum of `n` store lines from line `first` (R35). -/
def Store.contentSum (st : Store) (first n : Nat) : BitVec 16 :=
  ((List.range n).map (fun i => halfwordSum (st.readLine (first + i)))).sum

end Sys2Proof.Machine
end

