-- ==== Sys2Proof/Machine/Operands.lean ====
section
/-! DEFINITION. How operands and results are spelled in bytes: little-endian fields (00 Conventions), the request payloads
(R175), the kind and status codes (R173, R176), the response frame (R172), and the fields of the patch directory (7.2). -/

namespace Sys2Proof.Machine

/-! ### Little-endian fields -/

/-- A 1-byte field. -/
def field1 (n : Nat) : List Byte := [BitVec.ofNat 8 n]
/-- A 2-byte little-endian field. -/
def field2 (n : Nat) : List Byte := [BitVec.ofNat 8 n, BitVec.ofNat 8 (n / 256)]
/-- A 3-byte little-endian field. -/
def field3 (n : Nat) : List Byte := [BitVec.ofNat 8 n, BitVec.ofNat 8 (n / 256), BitVec.ofNat 8 (n / 65536)]
/-- A flag byte: 1 when set, 0 otherwise. -/
def fieldFlag (b : Bool) : List Byte := [if b then 1 else 0]

/-- Byte `i` of a line or record, as a number. -/
def byteAt (l : List Byte) (i : Nat) : Nat := (l.getD i 0).toNat
/-- The 2-byte little-endian field at offset `i`. -/
def read2 (l : List Byte) (i : Nat) : Nat := byteAt l i + 256 * byteAt l (i + 1)
/-- The 4-byte little-endian field at offset `i`. -/
def read4 (l : List Byte) (i : Nat) : Nat := read2 l i + 65536 * read2 l (i + 2)

/-! ### Request kinds -/

/-- The kind's code (R173). -/
def kindCode : Kind → Byte
  | .seek => 0x01
  | .next => 0x02
  | .portSet => 0x03
  | .status => 0x04
  | .tableRead => 0x05
  | .noticeTake => 0x06
  | .claim => 0x07
  | .add => 0x08
  | .fill => 0x09
  | .remove => 0x0A
  | .commit => 0x0B
  | .abort => 0x0C
  | .reload => 0x0D
  | .portReset => 0x0E

/-- The kinds in the order of their codes. -/
abbrev allKinds : List Kind :=
  [.seek, .next, .portSet, .status, .tableRead, .noticeTake, .claim, .add, .fill, .remove, .commit, .abort, .reload,
    .portReset]

/-- The kind a code names, none for 0x00 and 0x0F to 0xFF (R168). -/
def kindOfCode (b : Byte) : Option Kind := allKinds.find? (fun k => kindCode k == b)

/-- The payload length of the kind (R173). -/
def payloadLength : Kind → Nat
  | .seek => 3
  | .next => 0
  | .portSet => 5
  | .status => 0
  | .tableRead => 1
  | .noticeTake => 0
  | .claim => 1
  | .add => 9
  | .fill => 34
  | .remove => 1
  | .commit => 0
  | .abort => 0
  | .reload => 0
  | .portReset => 0

/-- Whether the kind is answered while a load is in progress (R149, R174). -/
def answeredInLoad : Kind → Bool
  | .status | .tableRead | .noticeTake | .portReset => true
  | .seek | .next | .portSet | .claim | .add | .fill | .remove | .commit | .abort | .reload => false

/-! ### Request payloads (R175) -/

/-- SEEK: the 3-byte port line. -/
def seekPayload (line : BitVec 24) : List Byte := field3 line.toNat
/-- PORT_SET: level, prefetch, attention mask, view base, view size. -/
def portSetPayload (level prefetch mask viewBase viewSize : Byte) : List Byte :=
  [level, prefetch, mask, viewBase, viewSize]
/-- ADD: tag, match line, length, scope, content sum. -/
def addPayload (tag : BitVec 16) (matchLine : BitVec 24) (length scope : Byte) (contentSum : BitVec 16) : List Byte :=
  field2 tag.toNat ++ field3 matchLine.toNat ++ [length, scope] ++ field2 contentSum.toNat
/-- FILL: slot, line index, 32 data bytes. -/
def fillPayload (slot index : Byte) (data : List Byte) : List Byte := slot :: index :: data

/-- The request a command places, by kind and payload; none for a command that is no request. -/
def requestOf : Instr → Option (Port × Kind × List Byte)
  | .seek p line => some (p, .seek, seekPayload line)
  | .next p => some (p, .next, [])
  | .portSet p level prefetch mask base size => some (p, .portSet, portSetPayload level prefetch mask base size)
  | .status p => some (p, .status, [])
  | .tableRead p slot => some (p, .tableRead, [slot])
  | .noticeTake p => some (p, .noticeTake, [])
  | .claim p wait => some (p, .claim, [wait])
  | .add p tag line length scope sum => some (p, .add, addPayload tag line length scope sum)
  | .fill p slot index data => some (p, .fill, fillPayload slot index data)
  | .remove p slot => some (p, .remove, [slot])
  | .commit p => some (p, .commit, [])
  | .abort p => some (p, .abort, [])
  | .reload p => some (p, .reload, [])
  | .portReset p => some (p, .portReset, [])
  | .badFrame .. | .badKind .. | .selectAsserted .. | .frameDiscarded .. | .responseLost .. | .deviceReset | .resetEnd ..
  | .timebaseTick | .drainExpiry | .sessionExpiry | .accessCompletes .. | .readyLimitExceeded | .byteReceived ..
  | .byteSent .. | .selectReleased .. => none

/-- The byte that brings a frame's sum to 0 modulo 256 (R167, R172). -/
def checkByte (bytes : List Byte) : Byte := -bytes.sum

/-- A correct request frame of a kind and payload: kind byte, payload, check byte (R167). -/
def requestFrame (k : Kind) (payload : List Byte) : List Byte :=
  kindCode k :: payload ++ [checkByte (kindCode k :: payload)]

/-! ### Responses -/

/-- The response statuses (R176). -/
inductive Status where
  | ok | badFrame | badKind | badArg | notReady
  | data | pending | endOfView | stale | noStream | outOfView | memFault | streamOpen
  | empty
  | busy | queued | notOwner | alreadyOwner | alreadyWaiting
  | tableFull | noSpace | overlap | opsFull | notLive | alreadyStaged | notStaged | incomplete | sumMismatch
  | priorDraining
  deriving DecidableEq, Repr

/-- The status byte (R176). -/
def statusCode : Status → Byte
  | .ok => 0x00
  | .badFrame => 0x01
  | .badKind => 0x02
  | .badArg => 0x03
  | .notReady => 0x04
  | .data => 0x10
  | .pending => 0x11
  | .endOfView => 0x12
  | .stale => 0x13
  | .noStream => 0x14
  | .outOfView => 0x15
  | .memFault => 0x16
  | .streamOpen => 0x17
  | .empty => 0x20
  | .busy => 0x30
  | .queued => 0x31
  | .notOwner => 0x32
  | .alreadyOwner => 0x33
  | .alreadyWaiting => 0x34
  | .tableFull => 0x40
  | .noSpace => 0x41
  | .overlap => 0x42
  | .opsFull => 0x43
  | .notLive => 0x44
  | .alreadyStaged => 0x45
  | .notStaged => 0x46
  | .incomplete => 0x47
  | .sumMismatch => 0x48
  | .priorDraining => 0x49

/-- A response: its status and the payload R177 gives it. -/
structure Response where
  status : Status
  payload : List Byte
  deriving DecidableEq, Repr

/-- A response without payload. -/
def bare (st : Status) : Response := ⟨st, []⟩

/-- The response frame: status byte, payload, check byte (R172). -/
def responseFrame (r : Response) : List Byte :=
  statusCode r.status :: r.payload ++ [checkByte (statusCode r.status :: r.payload)]

/-! ### Codes of payload fields -/

/-- Generation field: 0 means no generation (R85). -/
def generationField (g : Option Nat) : List Byte := field2 (g.getD 0)

/-- Source code of the DATA payload (R178). -/
def sourceCode : Source → Nat
  | .memory => 0
  | .overlay => 1

/-- Stream state code of the STATUS payload (R179). -/
def streamStateCode : StreamState → Nat
  | .idle => 0
  | .streaming => 1
  | .locked => 2
  | .stale _ => 3

/-- Load result code (R179, R181). -/
def loadResultCode : LoadResult → Nat
  | .complete => 0
  | .partialLoad => 1
  | .none => 2

/-- Header cause code (R179). -/
def headerCauseCode : HeaderCause → Nat
  | .pending => 0
  | .ok => 1
  | .headerFault => 2
  | .noSignature => 3
  | .badVersion => 4
  | .badHeaderSum => 5
  | .badCount => 6
  | .badPortField => 7

/-- Skip cause code (R179); 0 stands for none. -/
def skipCauseCode : SkipCause → Nat
  | .recordFault => 1
  | .badRecordSum => 2
  | .badField => 3
  | .overlap => 4
  | .noSpace => 5
  | .contentFault => 6
  | .contentSum => 7

/-- Origin code of the TABLE_READ payload (R180). -/
def originCode : Origin → Nat
  | .loader => 1
  | .port p => 2 + portIndex p

/-- Kind code of a notice, the bit number of its mask bit (R161, R181). -/
def noticeKind : Notice → Nat
  | .loadDone .. => 0
  | .committed .. => 1
  | .streamStale .. => 2
  | .sessionGranted .. => 3
  | .sessionExpired .. => 4

/-- The 9-byte record of a notice (R181). -/
def noticeBytes (n : Notice) : List Byte :=
  field1 (noticeKind n) ++
    match n with
    | .loadDone g result placed skipped =>
      field2 g ++ field1 (loadResultCode result) ++ field1 placed ++ field1 skipped ++ [0, 0, 0]
    | .committed g first last => field2 g ++ field3 first ++ field3 last
    | .streamStale g counter => field2 g ++ field3 counter ++ [0, 0, 0]
    | .sessionGranted g => field2 g ++ [0, 0, 0, 0, 0, 0]
    | .sessionExpired g => field2 g ++ [0, 0, 0, 0, 0, 0]

/-! ### The view (R43) -/

/-- A view size byte, 0 standing for 256 (R60, R139). -/
def viewSizeOf (b : Nat) : Nat := if b = 0 then Config.viewUnits else b

/-- The view line count (R43). -/
def Settings.viewLines (v : Settings) : Nat := v.viewSize * Config.unitLines
/-- The first physical line of the view (R43). -/
def Settings.firstLine (v : Settings) : Nat := v.viewBase * Config.unitLines
/-- The physical line of a port line (R43). -/
def Settings.physical (v : Settings) (portLine : Nat) : Nat := v.firstLine + portLine

end Sys2Proof.Machine
end

