-- ==== Sys2Proof/Machine/Link.lean ====
section
/-! DEFINITION. The host links (file 09): receiving a frame, its checks at the turnaround, the dispatch by the load state, and
sending the response. -/

namespace Sys2Proof.Machine

/-- What the checks of R168 make of a frame. -/
inductive FrameOutcome where
  | badFrame
  | badKind
  | correct (k : Kind) (payload : List Byte)
  deriving DecidableEq, Repr

/-- The checks of R168 in their order, from the byte count, the running sum and the kept bytes of R167. -/
def checkFrame (count : Nat) (sum : Byte) (kept : List Byte) : FrameOutcome :=
  if count < 2 then .badFrame
  else if sum ≠ 0 then .badFrame
  else
    match kindOfCode (kept.headD 0) with
    | none => .badKind
    | some k =>
      if count ≠ 2 + payloadLength k then .badFrame else .correct k ((kept.drop 1).take (payloadLength k))

/-- What the turnaround on port `p`'s link would meet: none when the link is not in REQUEST, where the turnaround is ignored
(R166), or while a device reset lasts (R153). -/
def State.frameAt (s : State) (p : Port) : Option FrameOutcome :=
  if s.inReset then none
  else
    match (s.links.get p).phase with
    | .request count sum kept => some (checkFrame count sum kept)
    | _ => none

/-- A byte clocked in REQUEST: counted, summed, and kept if it is among the first 36 (R167). -/
def Phase.receive (count : Nat) (sum : Byte) (kept : List Byte) (b : Byte) : Phase :=
  .request (count + 1) (sum + b) (if count < Config.keptBytes then kept ++ [b] else kept)

/-- The link enters RESPONSE with a response's frame (R168, R172). -/
def HostLink.answer (l : HostLink) (r : Response) : HostLink := { l with phase := .response (responseFrame r) }

/-- The two nibbles of a byte in the order the hub presents them: bits 0 to 3, then bits 4 to 7 (R187). -/
def nibblesOfByte (b : Byte) : BitVec 4 × BitVec 4 := (b.setWidth 4, (b >>> 4).setWidth 4)

/-- The link sends the next response byte, its two nibbles taken one after the other (R187); after the check byte it enters
DONE (R172). -/
def HostLink.send (l : HostLink) : HostLink :=
  match l.phase with
  | .response (b :: rest) =>
    { l with phase := (if rest.isEmpty then .done else .response rest), lastSent := some (nibblesOfByte b) }
  | _ => l

/-- The link returns to IDLE as select is released. -/
def HostLink.release (l : HostLink) : HostLink := { l with phase := .idle, selected := false, lastSent := none }

/-- One link error more, up to 255 (R170). -/
def HostLink.countError (l : HostLink) : HostLink := { l with errors := min Config.maxLinkErrors (l.errors + 1) }

/-- The response of port `p`'s request is formed (R171). -/
def State.respond (s : State) (p : Port) (r : Response) : State := s.putLink p ((s.links.get p).answer r)

/-- The byte two samples make, the first giving bits 0 to 3 (R187). -/
def byteOfSamples (firstSample secondSample : BitVec 4) : Byte := secondSample ++ firstSample

/-- What a request's owner answers: the state after its effect and the response, or a stop. -/
abbrev Answer := Except Fault (State × Response)

/-- The point of action (R171, R174). `request` is the command's own request: when the turnaround on its link meets a correct
frame of that request, it is dispatched by the load state, to `owner` or to the host link's NOT_READY; in any other state
the command's event cannot occur, and nothing happens (log entry 3). -/
def State.pointOfAction (s : State) (p : Port) (k : Kind) (payload : List Byte) (owner : State → Answer) :
    Host.Outcome State Fault Refusal :=
  if s.frameAt p = some (.correct k payload) then
    if !s.loader.ready && !answeredInLoad k then .next (s.respond p (bare .notReady))
    else
      match owner s with
      | .ok (s', r) => .next (s'.respond p r)
      | .error f => .fault f
  else .next s

end Sys2Proof.Machine
end

