-- ==== Sys2Proof/Machine/Notices.lean ====
section
/-! DEFINITION. The notice units (file 08): handing a notice over, taking one, and clearing a port's notices. -/

namespace Sys2Proof.Machine

/-- A notice is handed to a notice unit: it joins at the tail, or is dropped and the overflow flag set (R157). -/
def NoticeUnit.hand (u : NoticeUnit) (n : Notice) : NoticeUnit :=
  if u.queue.length < Config.maxNotices then { u with queue := u.queue ++ [n] } else { u with overflow := true }

/-- Hand a notice to port `p` (R157). -/
def State.hand (s : State) (p : Port) (n : Notice) : State := s.putNotice p ((s.notices.get p).hand n)

/-- Hand a notice to port `p` if there is one. -/
def State.hand? (s : State) (p : Port) : Option Notice → State
  | none => s
  | some n => s.hand p n

/-- Empty the queue and clear the overflow flag; the mask is kept (R151, R165). -/
def NoticeUnit.clear (u : NoticeUnit) : NoticeUnit := { u with queue := [], overflow := false }

/-- The head leaves the queue; when the queue is then empty the overflow flag is cleared (R158). -/
def NoticeUnit.takeHead (u : NoticeUnit) : NoticeUnit :=
  { u with queue := u.queue.tail, overflow := u.overflow && !u.queue.tail.isEmpty }

end Sys2Proof.Machine
end

