-- ==== Sys2Proof/Machine/Requests.lean ====
section
/-! DEFINITION. The external memory controller (file 04): the request set, grants with aging and port turn, withdrawal,
orphaning, and the fault record. What the end of a read hands over stands in Machine/ReadEnd.lean. -/

namespace Sys2Proof.Machine

/-- Effective level: the level, or 0 at pass count 8 (R68). -/
def Request.effective (r : Request) : Nat := if Config.agingThreshold ≤ r.passes then 0 else r.level

/-- One pass more, up to 8 (R69). -/
def Request.age (r : Request) : Request := { r with passes := min Config.agingThreshold (r.passes + 1) }

/-- The request of a line slot. -/
def Xmc.slotRequest (x : Xmc) (p : Port) (k : SlotId) : Option Request := (x.slotRequests.get p).get k

/-- Put or remove the request of a line slot. -/
def Xmc.putSlotRequest (x : Xmc) (p : Port) (k : SlotId) (r : Option Request) : Xmc :=
  { x with slotRequests := x.slotRequests.set p ((x.slotRequests.get p).set k r) }

/-- The request of a requester. -/
def Xmc.requestOf (x : Xmc) : Requester → Option Request
  | .slot p k => x.slotRequest p k
  | .loader => x.loaderRequest

/-- Remove the request of a requester from the set. -/
def Xmc.remove (x : Xmc) : Requester → Xmc
  | .slot p k => x.putSlotRequest p k none
  | .loader => { x with loaderRequest := none }

/-- Every place a request can stand in: the loader's and the eight line slots' (R65). -/
abbrev allRequesters : List Requester :=
  [.loader, .slot .hl0 .a, .slot .hl0 .b, .slot .hl1 .a, .slot .hl1 .b, .slot .hl2 .a, .slot .hl2 .b,
    .slot .hl3 .a, .slot .hl3 .b]

/-- The requests of the set (R65). -/
def Xmc.requests (x : Xmc) : List Request := allRequesters.filterMap x.requestOf

/-- The lowest effective level in the set (R68 step 1). -/
def Xmc.lowestLevel (x : Xmc) : Option Nat := (x.requests.map Request.effective).min?

/-- The requester has a candidate: a request at the lowest effective level (R68 step 1). -/
def Xmc.isCandidate (x : Xmc) (q : Requester) : Bool :=
  match x.requestOf q with
  | none => false
  | some r => decide (x.lowestLevel = some r.effective)

/-- The requesters in the order the grant prefers them: the loader, then the ports from the one after the round-robin pointer,
each with its delivery slot before its ahead slot (R68 steps 2 and 3). `roles` gives each port's delivery slot. -/
def grantOrder (pointer : Port) (roles : PerPort SlotId) : List Requester :=
  let p1 := nextPort pointer
  let p2 := nextPort p1
  let p3 := nextPort p2
  let pair := fun p => [Requester.slot p (roles.get p), Requester.slot p (roles.get p).other]
  .loader :: pair p1 ++ pair p2 ++ pair p3 ++ pair pointer

/-- The requester R68 chooses; none for an empty set. -/
def Xmc.choose (x : Xmc) (roles : PerPort SlotId) : Option Requester := (grantOrder x.pointer roles).find? x.isCandidate

/-- Every request left in the set gains one pass (R69). -/
def Xmc.ageAll (x : Xmc) : Xmc :=
  let age := fun (v : PerSlot (Option Request)) => (⟨v.a.map Request.age, v.b.map Request.age⟩ : PerSlot (Option Request))
  { x with
    slotRequests := ⟨age x.slotRequests.hl0, age x.slotRequests.hl1, age x.slotRequests.hl2, age x.slotRequests.hl3⟩
    loaderRequest := x.loaderRequest.map Request.age }

/-- The round-robin pointer after a grant: the granted port, or unchanged for the loader (R68). -/
def pointerAfter (pointer : Port) : Requester → Port
  | .slot p _ => p
  | .loader => pointer

/-- The grant of one requester's request: it leaves the set and becomes the read in flight, and every other gains a pass
(R67, R69). -/
def Xmc.grantTo (x : Xmc) (q : Requester) : Xmc :=
  match x.requestOf q with
  | none => x
  | some r =>
    { (x.remove q).ageAll with inFlight := some ⟨q, r.line, [], false⟩, pointer := pointerAfter x.pointer q }

/-- The grant: taken when the controller is idle and the set is not empty (R67). -/
def Xmc.grant (x : Xmc) (roles : PerPort SlotId) : Xmc :=
  match x.inFlight with
  | some _ => x
  | none =>
    match x.choose roles with
    | none => x
    | some q => x.grantTo q

/-- The role of each port's slots, as the stream units hold it (R65). -/
def State.roles (s : State) : PerPort SlotId := PerPort.tabulate (fun p => (s.streams.get p).delivery)

/-- The grant that follows an operation which placed requests, or the end of a read (R67). -/
def State.grant (s : State) : State := s.putXmc (s.xmc.grant s.roles)

/-- A request joins the set with pass count 0 (R66). -/
def State.placeSlotRequest (s : State) (p : Port) (k : SlotId) (line : Nat) : State :=
  s.putXmc (s.xmc.putSlotRequest p k (some ⟨line, (s.streams.get p).settings.level, 0⟩))

/-- The loader's request joins the set with level 0 and pass count 0 (R66, R81). -/
def State.placeLoaderRequest (s : State) (line : Nat) : State :=
  s.putXmc { s.xmc with loaderRequest := some ⟨line, 0, 0⟩ }

/-- Release what a line slot has outstanding: a waiting request is withdrawn (R75) and a read in flight for it is orphaned
(R76). -/
def Xmc.release (x : Xmc) (p : Port) (k : SlotId) : Xmc :=
  { x.putSlotRequest p k none with
    inFlight := x.inFlight.map (fun r => if r.requester = .slot p k then { r with orphan := true } else r) }

/-- RELOAD at the controller: the set is emptied and the read in flight orphaned; the pointer and the fault record are kept
(R83). -/
def Xmc.reload (x : Xmc) : Xmc :=
  { x with
    slotRequests := Xmc.reset.slotRequests
    loaderRequest := none
    inFlight := x.inFlight.map (fun r => { r with orphan := true }) }

/-- A line read ends as a fault: counted up to 65535, and its line recorded (R79). -/
def Xmc.recordFault (x : Xmc) (line : Nat) : Xmc :=
  { x with faults := min Config.maxFaults (x.faults + 1), lastFault := line }

/-- The controller becomes idle (R73, R74). -/
def Xmc.clearRead (x : Xmc) : Xmc := { x with inFlight := none }

end Sys2Proof.Machine
end

