-- ==== Sys2Proof/Machine/FreeList.lean ====
section
/-! DEFINITION. The overlay store's free extent list (2.2 to 2.4): first fit, allocation, freeing with merging, and the two
quantities STATUS reports. -/

namespace Sys2Proof.Machine

/-- First fit: the start of the first extent at least `n` long (R27, R28). -/
def firstFit (n : Nat) : List Extent → Option Nat
  | [] => none
  | e :: es => if n ≤ e.length then some e.start else firstFit n es

/-- The list after the first fitting extent gives up `n` lines from its low end; it leaves the list when none remain (R27).
Unchanged when no extent fits. -/
def takeFirstFit (n : Nat) : List Extent → List Extent
  | [] => []
  | e :: es =>
    if n ≤ e.length then
      if e.length = n then es else ⟨e.start + n, e.length - n⟩ :: es
    else e :: takeFirstFit n es

/-- Return an extent to its place in ascending order, merged with the neighbours it touches: the four cases of R29. -/
def insertExtent (x : Extent) : List Extent → List Extent
  | [] => [x]
  | e :: es =>
    if x.start < e.start then
      if x.start + x.length = e.start then ⟨x.start, x.length + e.length⟩ :: es else x :: e :: es
    else if e.start + e.length = x.start then
      match es with
      | [] => [⟨e.start, e.length + x.length⟩]
      | f :: fs =>
        if x.start + x.length = f.start then ⟨e.start, e.length + x.length + f.length⟩ :: fs
        else ⟨e.start, e.length + x.length⟩ :: f :: fs
    else e :: insertExtent x es

/-- Return several extents in one operation (R30). -/
def insertExtents (xs : List Extent) (free : List Extent) : List Extent := xs.foldl (fun l x => insertExtent x l) free

/-- Free total (R25). -/
def freeTotal (free : List Extent) : Nat := (free.map Extent.length).sum

/-- Largest extent, 0 for an empty list (R25). -/
def largestExtent (free : List Extent) : Nat := (free.map Extent.length).foldr max 0

/-- Give extents back to the store's list; the content is not touched (R26, R29). -/
def Store.giveBack (st : Store) (xs : List Extent) : Store := { st with freeList := insertExtents xs st.freeList }

/-- Take `n` lines by first fit out of the store's list (R27, R28). -/
def Store.take (st : Store) (n : Nat) : Store := { st with freeList := takeFirstFit n st.freeList }

/-- The store after a device reset or RELOAD: one full extent, every line's content unspecified (R26, log entry 1). -/
def Store.restart (st : Store) : Store := ⟨fullFreeList, [], st.epoch + 1⟩

end Sys2Proof.Machine
end

