-- ==== Sys2Proof/Machine/Table.lean ====
section
/-! DEFINITION. The overlay table (file 01): what each entry state counts for, visibility, lookup, the overlap check, slot
choice, and the transitions of several entries at once. -/

namespace Sys2Proof.Machine

/-! ### One entry -/

/-- The fields an entry has unless it is FREE (R1). -/
def Entry.fields? : Entry → Option EntryFields
  | .free => none
  | .staged f _ => some f
  | .live f _ _ => some f
  | .retiring f _ => some f

/-- The run of store lines that holds the content (R1). -/
def EntryFields.extent (f : EntryFields) : Extent := ⟨f.storeLine, f.length⟩

/-- The extent of an entry that is not FREE (R24). -/
def Entry.extent? (e : Entry) : Option Extent := e.fields?.map EntryFields.extent

def Entry.isFree : Entry → Bool
  | .free => true
  | _ => false

def Entry.isStaged : Entry → Bool
  | .staged .. => true
  | _ => false

def Entry.isLive : Entry → Bool
  | .live .. => true
  | _ => false

/-- LIVE with its removal mark set (R6). -/
def Entry.isMarked : Entry → Bool
  | .live _ _ mark => mark
  | _ => false

def Entry.isRetiring : Entry → Bool
  | .retiring .. => true
  | _ => false

/-- The entry covers physical line `x` (R16). -/
def EntryFields.covers (f : EntryFields) (x : Nat) : Bool := decide (f.matchLine ≤ x) && decide (x < f.matchLine + f.length)

/-- The entry lies inside the store: the fourth condition of R2. -/
def Entry.inStore (e : Entry) : Bool :=
  match e.extent? with
  | none => true
  | some x => decide (x.start + x.length ≤ Config.storeLines)

/-! ### Visibility and lookup -/

/-- The fields of an entry that is visible to port `p` under generation `g`, where `c` and `sup` are C and S: under C the
LIVE entries (R14), under S the LIVE entries not born in C and the RETIRING ones (R15), under no other number any. -/
def Entry.visible? (c : Nat) (sup : Option Nat) (g : Nat) (p : Port) : Entry → Option EntryFields
  | .live f born _ =>
    if inScope f.scope p && (decide (g = c) || (decide (sup = some g) && decide (born ≠ c))) then some f else none
  | .retiring f _ => if inScope f.scope p && decide (g ≠ c) && decide (sup = some g) then some f else none
  | .free => none
  | .staged _ _ => none

/-- Lookup from slot `i` on: the slot and the store line of the visible entry that covers `x` (R16). -/
def lookupFrom (i : Nat) (c : Nat) (sup : Option Nat) (g : Nat) (p : Port) (x : Nat) : List Entry → Option (Nat × Nat)
  | [] => none
  | e :: t =>
    match e.visible? c sup g p with
    | some f => if f.covers x then some (i, f.storeLine + (x - f.matchLine)) else lookupFrom (i + 1) c sup g p x t
    | none => lookupFrom (i + 1) c sup g p x t

/-- Lookup of physical line `x` for port `p` under generation `g`: an overlay hit on a slot and store line, or memory (R16).
R17 makes the entry unique; where it fails, the lowest slot answers (log entry 15). -/
def lookup (t : List Entry) (c : Nat) (sup : Option Nat) (g : Nat) (p : Port) (x : Nat) : Option (Nat × Nat) :=
  lookupFrom 0 c sup g p x t

/-! ### Overlap check and slot choice -/

/-- The fields of an entry the overlap check counts: STAGED, or LIVE with its mark clear (R19). -/
def Entry.counted? : Entry → Option EntryFields
  | .staged f _ => some f
  | .live f _ mark => if mark then none else some f
  | .free => none
  | .retiring _ _ => none

/-- Two ranges share at least one line (R19). -/
def rangesMeet (m n m' n' : Nat) : Bool := decide (max m m' < min (m + n) (m' + n'))

/-- The overlap check yields OVERLAP for match line `m`, length `n` and scope `scope` (R19). -/
def overlaps (t : List Entry) (m n : Nat) (scope : BitVec 4) : Bool :=
  t.any (fun e =>
    match e.counted? with
    | none => false
    | some f => decide (f.scope &&& scope ≠ 0) && rangesMeet m n f.matchLine f.length)

/-- Slot choice: the lowest FREE slot (R20). -/
def lowestFree (t : List Entry) : Option Nat := t.findIdx? Entry.isFree

/-- The entry of a slot. -/
def entryAt (t : List Entry) (slot : Nat) : Entry := t.getD slot .free

/-- Count of LIVE entries (R22). -/
def liveCount (t : List Entry) : Nat := t.countP Entry.isLive

/-- Every entry lies inside the store (R2). -/
def tableInStore (t : List Entry) : Bool := t.all Entry.inStore

/-- Fill count of a fill map (R7). -/
def fillCount (fillMap : List Nat) : Nat := fillMap.length

/-- Add an index to a fill map held in ascending order; an index already in it leaves it as it was (R7). -/
def addIndex (i : Nat) : List Nat → List Nat
  | [] => [i]
  | j :: js => if i < j then i :: j :: js else if i = j then j :: js else j :: addIndex i js

/-! ### Several entries at once -/

/-- Every entry that `which` selects becomes FREE (R13). -/
def freeWhere (which : Entry → Bool) (t : List Entry) : List Entry := t.map (fun e => if which e then .free else e)

/-- The extents of the entries that `which` selects (R13, R30). -/
def extentsWhere (which : Entry → Bool) (t : List Entry) : List Extent :=
  (t.filter which).filterMap Entry.extent?

/-- The selected entries become FREE and their extents return to the free extent list, in one operation (R13, R30). -/
def State.freeEntries (s : State) (which : Entry → Bool) : State :=
  (s.putTable (freeWhere which s.table)).putStore (s.store.giveBack (extentsWhere which s.table))

/-- Clear an entry's removal mark (R6). -/
def Entry.unmark : Entry → Entry
  | .live f born _ => .live f born false
  | e => e

/-- One slot becomes FREE and its extent returns to the list (R13, R29). -/
def State.freeSlot (s : State) (slot : Nat) : State :=
  (s.putTable (s.table.set slot .free)).putStore (s.store.giveBack (entryAt s.table slot).extent?.toList)

end Sys2Proof.Machine
end

