-- ==== Sys2Proof/Machine/Streams.lean ====
section
/-! DEFINITION. The stream units' shared operations (file 03): filling a slot by lookup, abandoning, the unbinding that
may end a drain, the advance of a delivery, and the closing of a stream. -/

namespace Sys2Proof.Machine

/-! ### Slots -/

/-- The ahead slot's place (R49). -/
def StreamUnit.ahead (u : StreamUnit) : SlotId := u.delivery.other
/-- The delivery slot. -/
def StreamUnit.deliverySlot (u : StreamUnit) : LineSlot := u.slots.get u.delivery
/-- The ahead slot. -/
def StreamUnit.aheadSlot (u : StreamUnit) : LineSlot := u.slots.get u.ahead
/-- The unit with slot `k` replaced. -/
def StreamUnit.putSlot (u : StreamUnit) (k : SlotId) (x : LineSlot) : StreamUnit := { u with slots := u.slots.set k x }

/-- Replace slot `k` of port `p`. -/
def State.putSlot (s : State) (p : Port) (k : SlotId) (x : LineSlot) : State :=
  s.putStream p ((s.streams.get p).putSlot k x)

/-- The generation a port's lookups are taken under; 0, no generation, when it is unbound (R85, R87). -/
def State.boundGeneration (s : State) (p : Port) : Nat := (s.gen.bindings.get p).getD 0

/-- The lookup a stream unit makes for a port line (R43, R45). -/
def State.lookupLine (s : State) (p : Port) (portLine : Nat) : Option (Nat × Nat) :=
  lookup s.table s.gen.current s.gen.superseded (s.boundGeneration p) p
    ((s.streams.get p).settings.physical portLine)

/-- Fill slot `k` of port `p` by lookup for a port line: READY from the store on a hit, else WAITING with a request placed
(R45, R34). -/
def State.fillSlot (s : State) (p : Port) (k : SlotId) (portLine : Nat) : State :=
  match s.lookupLine p portLine with
  | some (_, storeLine) => s.putSlot p k (.ready portLine .overlay (s.store.readLine storeLine))
  | none =>
    (s.putSlot p k (.waiting portLine)).placeSlotRequest p k ((s.streams.get p).settings.physical portLine)

/-- The ahead slot is filled for counter + 1 when prefetch is on and that line is in the view (R49, R50 step 5). -/
def State.fillAhead (s : State) (p : Port) : State :=
  let u := s.streams.get p
  if u.settings.prefetch && decide (u.counter + 1 < u.settings.viewLines) then s.fillSlot p u.ahead (u.counter + 1) else s

/-- Abandon slot `k` of port `p`: it becomes EMPTY and its outstanding read is released (R46). -/
def State.abandon (s : State) (p : Port) (k : SlotId) : State := (s.putSlot p k .empty).putXmc (s.xmc.release p k)

/-- Abandon both slots of a port (R46). -/
def State.abandonBoth (s : State) (p : Port) : State := (s.abandon p .a).abandon p .b

/-! ### Binding and the end of a drain -/

/-- Some port is bound to generation `g`. -/
def anyBoundTo (b : PerPort (Option Nat)) (g : Nat) : Bool := allPorts.any (fun p => decide (b.get p = some g))

/-- The drain ends: S absent, the timer stopped, every RETIRING entry FREE with its extent returned (R99). -/
def State.drainEnd (s : State) : State :=
  (s.putGen { s.gen with superseded := none, drainTimer := none }).freeEntries Entry.isRetiring

/-- Set a port's binding; when that leaves no port bound to S, and this port was, the drain ends (R88, R89). -/
def State.rebind (s : State) (p : Port) (b : Option Nat) : State :=
  let bindings := s.gen.bindings.set p b
  let s' := s.putGen { s.gen with bindings := bindings }
  match s.gen.superseded with
  | none => s'
  | some sup => if decide (s.gen.bindings.get p = some sup) && !anyBoundTo bindings sup then s'.drainEnd else s'

/-! ### Opening, advancing, closing -/

/-- An accepted SEEK to a port line: both slots abandoned, the port bound to C, the counter set, both slots filled, the
stream STREAMING (R50 steps 1 to 6). -/
def State.openStream (s : State) (p : Port) (portLine : Nat) : State :=
  let s1 := (s.abandonBoth p).rebind p (some s.gen.current)
  let s2 := s1.putStream p { s1.streams.get p with state := .streaming, counter := portLine }
  (s2.fillSlot p (s2.streams.get p).delivery portLine).fillAhead p

/-- What a delivery leaves (R53 steps 2 to 4): the counter one higher and the delivered slot EMPTY; at the end of the view
the stream LOCKED; else the ahead slot promoted, or the delivery slot filled for the new counter when the ahead slot was
EMPTY, and the ahead slot refilled (R49). -/
def State.advance (s : State) (p : Port) : State :=
  let u := s.streams.get p
  let u' := { u.putSlot u.delivery .empty with counter := u.counter + 1 }
  if u.counter + 1 = u.settings.viewLines then s.putStream p { u' with state := .locked }
  else if u.aheadSlot = .empty then ((s.putStream p u').fillSlot p u.delivery (u.counter + 1)).fillAhead p
  else (s.putStream p { u' with delivery := u.ahead }).fillAhead p

/-- Close a stream IDLE: both slots abandoned, counter 0, any close line discarded (R62). -/
def State.closeIdle (s : State) (p : Port) : State :=
  let s1 := s.abandonBoth p
  s1.putStream p { s1.streams.get p with state := .idle, counter := 0 }

/-- Close a stream STALE: the close line takes the counter, both slots are abandoned, the counter becomes 0 (R57). -/
def State.closeStale (s : State) (p : Port) : State :=
  let closeLine := (s.streams.get p).counter
  let s1 := s.abandonBoth p
  s1.putStream p { s1.streams.get p with state := .stale closeLine, counter := 0 }

/-- Apply settings to a stream unit (R44). -/
def State.putSettings (s : State) (p : Port) (v : Settings) : State :=
  s.putStream p { s.streams.get p with settings := v }

end Sys2Proof.Machine
end

