-- ==== Sys2Proof/Machine/Loading.lean ====
section
/-! DEFINITION. The directory loader (file 07): where the directory lies, the header and record checks, placing and
skipping, the end of a load, and what the loader does with the end of each of its line reads. -/

namespace Sys2Proof.Machine

/-! ### The directory -/

/-- The header line for the sampled straps (R134). -/
def headerLine (dirsel : BitVec 2) : Nat :=
  if dirsel = 0 then 130944 else if dirsel = 1 then 262016 else if dirsel = 2 then 393088 else 524160

/-- The record line of record `i` (R134). -/
def recordLine (dirsel : BitVec 2) (i : Nat) : Nat := headerLine dirsel + 1 + i / 2

/-- Record `i`'s 16 bytes of its record line (R141). -/
def recordBytes (line : List Byte) (i : Nat) : List Byte := (line.drop (16 * (i % 2))).take 16

/-! ### The header -/

/-- The header's fields of one port are in range (R138 check 6). -/
def headerPortOk (h : List Byte) (p : Port) : Bool :=
  let n := portIndex p
  decide (byteAt h (8 + n) + viewSizeOf (byteAt h (12 + n)) ≤ Config.viewUnits) && decide (byteAt h (18 + n) ≤ 3)
    && decide (byteAt h (22 + n) ≤ 1) && decide (byteAt h (26 + n) < 32)

/-- The checks of R138 after the read, in their order; the first that fails gives the cause. -/
def checkHeader (h : List Byte) : HeaderCause :=
  if h.take 4 ≠ [0x4F, 0x57, 0x44, 0x52] then .noSignature
  else if byteAt h 4 ≠ 1 then .badVersion
  else if halfwordSum h ≠ 0 then .badHeaderSum
  else if 64 < byteAt h 5 then .badCount
  else if !allPorts.all (headerPortOk h) then .badPortField
  else .ok

/-- A limit byte, 0 standing for the default (R139). -/
def limitOf (b default : Nat) : Nat := if b = 0 then default else b

/-- The values a valid header gives one port (R139). -/
def headerPort (h : List Byte) (p : Port) : PortDefaults :=
  let n := portIndex p
  ⟨⟨byteAt h (8 + n), viewSizeOf (byteAt h (12 + n)), byteAt h (18 + n), decide (byteAt h (22 + n) = 1)⟩,
    BitVec.ofNat 5 (byteAt h (26 + n))⟩

/-- The values a valid header gives the pending record (R139). -/
def headerDefaults (h : List Byte) : Defaults :=
  ⟨PerPort.tabulate (headerPort h), limitOf (byteAt h 6) 5, limitOf (byteAt h 7) 20⟩

/-! ### Records -/

/-- The record's fields are in range (R142). -/
def recordFieldsOk (r : List Byte) : Bool :=
  decide (read4 r 0 < Config.physicalLines) && decide (read4 r 4 < Config.physicalLines)
    && decide (1 ≤ byteAt r 8) && decide (byteAt r 8 ≤ Config.maxLength)
    && decide (read4 r 0 + byteAt r 8 ≤ Config.physicalLines) && decide (read4 r 4 + byteAt r 8 ≤ Config.physicalLines)
    && decide (1 ≤ byteAt r 9) && decide (byteAt r 9 < 16)

/-- The record's fields (7.2). -/
def readRecord (r : List Byte) : DirRecord :=
  ⟨read4 r 0, read4 r 4, byteAt r 8, BitVec.ofNat 4 (byteAt r 9), BitVec.ofNat 16 (read2 r 10), BitVec.ofNat 16 (read2 r 12)⟩

/-- Checks 1 to 4 of a record whose line was read: sum, fields, overlap, space (R141 to R143). On success, the record and its
chosen store line. -/
def checkRecord (t : List Entry) (free : List Extent) (r : List Byte) : Except SkipCause (DirRecord × Nat) :=
  if halfwordSum r ≠ 0 then .error .badRecordSum
  else if !recordFieldsOk r then .error .badField
  else
    let d := readRecord r
    if overlaps t d.matchLine d.length d.scope then .error .overlap
    else
      match firstFit d.length free with
      | none => .error .noSpace
      | some chosen => .ok (d, chosen)

/-- The fields of the entry a record is placed as (R10). -/
def DirRecord.entry (d : DirRecord) (chosen : Nat) : EntryFields :=
  ⟨d.tag, d.matchLine, d.length, d.scope, chosen, .loader, d.contentSum⟩

/-! ### The course of a load -/

/-- The loader waits for a line: its request joins the set (R81, R136). -/
def State.loaderRead (s : State) (step : LoaderStep) (line : Nat) : State :=
  (s.putLoader { s.loader with step := step }).placeLoaderRequest line

/-- A load begins at the header (R136, R137). -/
def State.beginLoad (s : State) : State := s.loaderRead .header (headerLine s.loader.dirsel)

/-- The loader at the start of a load, before its header request: LOADING, the report cleared; the port defaults record and
the sampled straps are kept (R135, R147, R151). -/
def Loader.restart (l : Loader) : Loader :=
  { l with ready := false, report := LoadReport.cleared, pendingRecord := none, recordIndex := 0, recordCount := 0, step := .idle }

/-- The result of a finished load (R147). -/
def LoadReport.finalResult (r : LoadReport) : LoadResult :=
  if r.headerCause ≠ .ok then .none else if r.skipped = 0 then .complete else .partialLoad

/-- A port takes its settings and mask from a defaults record (R44, R161). -/
def State.applyDefaults (s : State) (d : Defaults) (p : Port) : State :=
  (s.putSettings p (d.ports.get p).settings).putNotice p { s.notices.get p with mask := (d.ports.get p).mask }

/-- The end of a load, in one operation (R148): the pending record becomes the port defaults record and reaches every port,
the report takes its result, the state becomes READY, and each port is handed LOAD_DONE. -/
def State.endLoad (s : State) : State :=
  let d := s.loader.pendingRecord.getD s.loader.defaults
  let report := { s.loader.report with result := s.loader.report.finalResult }
  let s1 := allPorts.foldl (fun s p => s.applyDefaults d p) s
  let s2 := s1.putLoader { s.loader with ready := true, report := report, defaults := d, pendingRecord := none, step := .idle }
  allPorts.foldl (fun s p => s.hand p (.loadDone s.gen.current report.result report.placed report.skipped)) s2

/-- The loader turns to record `i`, or ends the load when there is none (R136, R146). After the end the record index rests at `i`,
the record count: R135 does not say what it holds between loads (DESIGN CHOICE, log entry 22). -/
def State.beginRecord (s : State) (i : Nat) : State :=
  let s1 := s.putLoader { s.loader with recordIndex := i }
  if i < s.loader.recordCount then s1.loaderRead .record (recordLine s.loader.dirsel i) else s1.endLoad

/-- The record is skipped (R146): counted, the first skip recorded, and the next record begun. -/
def State.skipRecord (s : State) (cause : SkipCause) : State :=
  let r := s.loader.report
  let report := { r with skipped := r.skipped + 1, firstSkip := r.firstSkip.or (some (s.loader.recordIndex, cause)) }
  (s.putLoader { s.loader with report := report }).beginRecord (s.loader.recordIndex + 1)

/-- The record is placed (R145): the lowest FREE slot becomes LIVE, born in generation 1, the chosen lines leave the free
extent list, the count rises, and the next record is begun. A load never lacks a FREE slot (R20, R143); in a state where
none is FREE the record is skipped (log entry 16). -/
def State.placeRecord (s : State) (d : DirRecord) (chosen : Nat) : State :=
  match lowestFree s.table with
  | none => s.skipRecord .noSpace
  | some slot =>
    let s1 := (s.putTable (s.table.set slot (.live (d.entry chosen) 1 false))).putStore (s.store.take d.length)
    let report := { s.loader.report with placed := s.loader.report.placed + 1 }
    (s1.putLoader { s.loader with report := report }).beginRecord (s.loader.recordIndex + 1)

/-- The header fails (R138, R140): the cause is reported, the pending record takes the built-in defaults, the load ends. The record
index and record count rest at 0 as the load's start left them (DESIGN CHOICE, log entry 22). -/
def State.failHeader (s : State) (cause : HeaderCause) : State :=
  (s.putLoader
    { s.loader with report := { s.loader.report with headerCause := cause }, pendingRecord := some Defaults.builtIn }).endLoad

/-- The header is valid (R139): its values are taken, and record 0 is begun. -/
def State.acceptHeader (s : State) (h : List Byte) : State :=
  (s.putLoader
    { s.loader with
      report := { s.loader.report with headerCause := .ok, tag := BitVec.ofNat 16 (read2 h 16) }
      pendingRecord := some (headerDefaults h)
      recordCount := byteAt h 5 }).beginRecord 0

/-- A record line was read (R141 to R143): the record is skipped, or its copy begins with content line 0. -/
def State.takeRecord (s : State) (line : List Byte) : State :=
  match checkRecord s.table s.store.freeList (recordBytes line s.loader.recordIndex) with
  | .error cause => s.skipRecord cause
  | .ok (d, chosen) => s.loaderRead (.copy d chosen 0) d.sourceLine

/-- A content line was read (R144, R145): it is written, and the next is read, or after the last the copied sum decides. -/
def State.takeContent (s : State) (d : DirRecord) (chosen i : Nat) (line : List Byte) : State :=
  let s1 := s.putStore (s.store.writeLine (chosen + i) line)
  if i + 1 < d.length then s1.loaderRead (.copy d chosen (i + 1)) (d.sourceLine + (i + 1))
  else if s1.store.contentSum chosen d.length = d.contentSum then s1.placeRecord d chosen
  else s1.skipRecord .contentSum

/-- A line read of the loader ended with data (R137, R141, R144). Data for a loader that waits for none is dropped. -/
def State.loaderData (s : State) (line : List Byte) : State :=
  match s.loader.step with
  | .idle => s
  | .header => if checkHeader line = .ok then s.acceptHeader line else s.failHeader (checkHeader line)
  | .record => s.takeRecord line
  | .copy d chosen i => s.takeContent d chosen i line

/-- A line read of the loader faulted (R138 check 1, R141, R144). -/
def State.loaderFault (s : State) : State :=
  match s.loader.step with
  | .idle => s
  | .header => s.failHeader .headerFault
  | .record => s.skipRecord .recordFault
  | .copy _ _ _ => s.skipRecord .contentFault

/-- The store line the loader would write exists: the chosen extent lies inside the store (R28). -/
def State.loaderInStore (s : State) : Bool :=
  match s.loader.step with
  | .copy d chosen i => decide (chosen + d.length ≤ Config.storeLines) && decide (i < d.length)
  | _ => true

end Sys2Proof.Machine
end

