-- ==== Sys2Proof/Machine/Sessions.lean ====
section
/-! DEFINITION. The edit controller's shared operations (file 06) and the commit step of generation control (file 05). -/

namespace Sys2Proof.Machine

/-- The port owns the open session (R107). -/
def State.isOwner (s : State) (p : Port) : Bool :=
  match s.edit.session with
  | none => false
  | some ses => decide (ses.owner = p)

/-- The open session's op list, empty in NONE (R106). -/
def State.ops (s : State) : List Op :=
  match s.edit.session with
  | none => []
  | some ses => ses.ops

/-- Replace the op list of the open session. -/
def State.putOps (s : State) (ops : List Op) : State :=
  s.putEdit { s.edit with session := s.edit.session.map (fun ses => { ses with ops := ops }) }

/-- A session opens for a port: empty op list, idle timer started with the limit held at that moment (R106, R115). -/
def State.openSession (s : State) (p : Port) : State :=
  s.putEdit { s.edit with session := some ⟨p, ⟨0, s.loader.defaults.idleLimit⟩, []⟩ }

/-- An edit request from the owner restarts the idle timer; from another port it does not (R115). -/
def State.restartIdle (s : State) (p : Port) : State :=
  if s.isOwner p then
    s.putEdit { s.edit with
      session := s.edit.session.map (fun ses => { ses with idleTimer := { ses.idleTimer with elapsed := 0 } }) }
  else s

/-- The session ends and is handed over: the head of the claim queue becomes owner of a new session and is handed
SESSION_GRANTED with C, or the state stays NONE (R113). -/
def State.endSession (s : State) : State :=
  match s.edit.claimQueue with
  | [] => s.putEdit ⟨none, []⟩
  | p :: rest => ((s.putEdit ⟨none, rest⟩).openSession p).hand p (.sessionGranted s.gen.current)

/-- The session is released: STAGED entries FREE with their extents returned, marks cleared, the op list discarded, and the
handover follows (R112). -/
def State.release (s : State) : State :=
  let s1 := s.freeEntries Entry.isStaged
  (s1.putTable (s1.table.map Entry.unmark)).endSession

/-- A queued port leaves the claim queue from its own place (R108, R129). -/
def State.leaveQueue (s : State) (p : Port) : State := s.putEdit { s.edit with claimQueue := s.edit.claimQueue.erase p }

/-- A port's place in the claim queue: the ports ahead of it plus one (R111). -/
def placeInQueue (q : List Port) (p : Port) : Nat := q.idxOf p + 1

/-! ### The commit step -/

/-- The generation after `c`; 65535 is followed by 1 (R86). -/
def nextGeneration (c : Nat) : Nat := if c = Config.maxGeneration then 1 else c + 1

/-- What the commit step makes of an entry: `n` becomes current, `c` is superseded, `bound` says whether some port is bound to
`c` (R11, R12). -/
def Entry.commit (c n : Nat) (bound : Bool) : Entry → Entry
  | .staged f _ => .live f n false
  | .live f born mark =>
    let born' := if born = n then c else born
    if mark then (if bound then .retiring f born' else .free) else .live f born' false
  | .free => .free
  | .retiring f born => .retiring f born

/-- The fields of an entry the commit step changes: made LIVE, or moved out of LIVE (R95). -/
def Entry.changed? : Entry → Option EntryFields
  | .staged f _ => some f
  | .live f _ mark => if mark then some f else none
  | .free => none
  | .retiring _ _ => none

/-- An entry's range clipped to a view and translated to port lines, first and last (R95 steps 2 and 3). -/
def clipToView (v : Settings) (f : EntryFields) : Option (Nat × Nat) :=
  let low := max f.matchLine v.firstLine
  let high := min (f.matchLine + f.length) (v.firstLine + v.viewLines)
  if low < high then some (low - v.firstLine, high - 1 - v.firstLine) else none

/-- The clipped ranges of the changed entries whose scope contains the port (R95). -/
def changedRanges (t : List Entry) (p : Port) (v : Settings) : List (Nat × Nat) :=
  ((t.filterMap Entry.changed?).filter (fun f => inScope f.scope p)).filterMap (clipToView v)

/-- The COMMITTED notice for a port, if any clipped range is left: N and the lowest and highest port line (R95). -/
def committedNotice (t : List Entry) (n : Nat) (p : Port) (v : Settings) : Option Notice :=
  let ranges := changedRanges t p v
  match (ranges.map Prod.fst).min?, (ranges.map Prod.snd).max? with
  | some first, some last => some (.committed n first last)
  | _, _ => none

/-- Hand the COMMITTED notices of a commit step, worked out over the table before the step (R95, R96). -/
def State.handCommitted (s : State) (before : List Entry) (n : Nat) : State :=
  allPorts.foldl (fun s p => s.hand? p (committedNotice before n p (s.streams.get p).settings)) s

/-- Some port is bound to C (R92). -/
def State.currentIsBound (s : State) : Bool := allPorts.any (fun p => decide (s.gen.bindings.get p = some s.gen.current))

/-- The commit step (R91): the table of R11 and R12; C, S and the drain timer of R92 when some port is bound to C, or of R93
with the marked entries' extents returned when none is; and the COMMITTED notices. -/
def State.commitStep (s : State) : State :=
  let c := s.gen.current
  let n := nextGeneration c
  let bound := s.currentIsBound
  let s1 := s.putTable (s.table.map (Entry.commit c n bound))
  let s2 :=
    if bound then
      s1.putGen { s.gen with current := n, superseded := some c, drainTimer := some ⟨0, s.loader.defaults.drainLimit⟩ }
    else
      (s1.putGen { s.gen with current := n }).putStore (s.store.giveBack (extentsWhere Entry.isMarked s.table))
  s2.handCommitted s.table n

/-- The check of the ADD ops in op order (R126): none when all pass, else the slot that fails with its fill count or with
the computed sum. An op whose entry is not STAGED is passed over (log entry 16). -/
inductive CommitRefusal where
  | incomplete (slot count : Nat)
  | sumMismatch (slot : Nat) (sum : BitVec 16)
  deriving DecidableEq, Repr

/-- The check of one op (R126). -/
def checkOp (t : List Entry) (st : Store) : Op → Option CommitRefusal
  | .remove _ => none
  | .add slot =>
    match entryAt t slot with
    | .staged f fillMap =>
      if fillCount fillMap ≠ f.length then some (.incomplete slot (fillCount fillMap))
      else if st.contentSum f.storeLine f.length ≠ f.contentSum then
        some (.sumMismatch slot (st.contentSum f.storeLine f.length))
      else none
    | _ => none

/-- The first op that fails (R126). -/
def checkOps (t : List Entry) (st : Store) (ops : List Op) : Option CommitRefusal := ops.findSome? (checkOp t st)

end Sys2Proof.Machine
end

