-- ==== Sys2Proof/Machine/EditRequests.lean ====
section
/-! DEFINITION. The requests the edit controller owns (file 06): CLAIM, ADD, FILL, REMOVE, COMMIT, ABORT, RELOAD. Each but
RELOAD restarts the owner's idle timer, accepted or refused (R115). -/

namespace Sys2Proof.Machine

/-! ### CLAIM (R110, R111) -/

/-- CLAIM by the session state, after the timer restart (R110). -/
def claimBody (p : Port) (wait : Nat) (s : State) : State × Response :=
  if 1 < wait then (s, bare .badArg)
  else if s.edit.session = none then (s.openSession p, ⟨.ok, field2 s.gen.current⟩)
  else if s.isOwner p then (s, bare .alreadyOwner)
  else if wait = 0 then (s, bare .busy)
  else if p ∈ s.edit.claimQueue then (s, ⟨.alreadyWaiting, field1 (placeInQueue s.edit.claimQueue p)⟩)
  else (s.putEdit { s.edit with claimQueue := s.edit.claimQueue ++ [p] }, ⟨.queued, field1 (s.edit.claimQueue.length + 1)⟩)

/-- CLAIM at the edit controller. -/
def claimOwner (p : Port) (wait : Nat) (s : State) : Answer := .ok (claimBody p wait (s.restartIdle p))

/-- CLAIM (R110). -/
def execClaim (p : Port) (wait : Byte) (s : State) : Host.Outcome State Fault Refusal :=
  s.pointOfAction p .claim [wait] (claimOwner p wait.toNat)

/-! ### ADD (R118, R119) -/

/-- A value of ADD is out of range (R118 step 2). -/
def addBadArg (matchLine length scope : Nat) : Bool :=
  decide (length = 0) || decide (Config.maxLength < length) || decide (Config.physicalLines ≤ matchLine)
    || decide (Config.physicalLines < matchLine + length) || decide (scope = 0) || decide (16 ≤ scope)

/-- An accepted ADD (R119): the slot becomes STAGED with the fields of R9, the lines are taken, and the op joins. -/
def State.stage (s : State) (slot : Nat) (f : EntryFields) : State :=
  let s1 := (s.putTable (s.table.set slot (.staged f []))).putStore (s.store.take f.length)
  s1.putOps (s.ops ++ [.add slot])

/-- ADD from the owner (R118 steps 2 to 7). -/
def addBody (p : Port) (tag : BitVec 16) (matchLine length : Nat) (scope : Byte) (contentSum : BitVec 16) (s : State) :
    State × Response :=
  if addBadArg matchLine length scope.toNat then (s, bare .badArg)
  else if Config.maxOps ≤ s.ops.length then (s, bare .opsFull)
  else if overlaps s.table matchLine length (scope.setWidth 4) then (s, bare .overlap)
  else
    match lowestFree s.table with
    | none => (s, bare .tableFull)
    | some slot =>
      match firstFit length s.store.freeList with
      | none => (s, bare .noSpace)
      | some first =>
        (s.stage slot ⟨tag, matchLine, length, scope.setWidth 4, first, .port p, contentSum⟩, ⟨.ok, field1 slot⟩)

/-- ADD at the edit controller (R118). -/
def addOwner (p : Port) (tag : BitVec 16) (matchLine length : Nat) (scope : Byte) (contentSum : BitVec 16) (s : State) :
    Answer :=
  if s.isOwner p then .ok (addBody p tag matchLine length scope contentSum (s.restartIdle p))
  else .ok (s, bare .notOwner)

/-- ADD (R118). -/
def execAdd (p : Port) (tag : BitVec 16) (matchLine : BitVec 24) (length scope : Byte) (contentSum : BitVec 16) (s : State) :
    Host.Outcome State Fault Refusal :=
  s.pointOfAction p .add (addPayload tag matchLine length scope contentSum)
    (addOwner p tag matchLine.toNat length.toNat scope contentSum)

/-! ### FILL (R120) -/

/-- FILL from the owner (R120 steps 2 to 5). -/
def fillBody (slot index : Nat) (data : List Byte) (s : State) : State × Response :=
  if Config.tableSlots ≤ slot then (s, bare .badArg)
  else
    match entryAt s.table slot with
    | .staged f fillMap =>
      if f.length ≤ index then (s, bare .badArg)
      else
        ((s.putTable (s.table.set slot (.staged f (addIndex index fillMap)))).putStore
            (s.store.writeLine (f.storeLine + index) data),
          ⟨.ok, field1 (fillCount (addIndex index fillMap))⟩)
    | _ => (s, bare .notStaged)

/-- FILL at the edit controller (R120). -/
def fillOwner (p : Port) (slot index : Nat) (data : List Byte) (s : State) : Answer :=
  if s.isOwner p then
    if !tableInStore s.table then .error .outsideStore else .ok (fillBody slot index data (s.restartIdle p))
  else .ok (s, bare .notOwner)

/-- FILL (R120). -/
def execFill (p : Port) (slot index : Byte) (data : List Byte) (s : State) : Host.Outcome State Fault Refusal :=
  s.pointOfAction p .fill (fillPayload slot index data) (fillOwner p slot.toNat index.toNat data)

/-! ### REMOVE (R121 to R123) -/

/-- REMOVE from the owner, by the state of the entry. -/
def removeBody (slot : Nat) (s : State) : State × Response :=
  if Config.tableSlots ≤ slot then (s, bare .badArg)
  else
    match entryAt s.table slot with
    | .staged _ _ => ((s.freeSlot slot).putOps (s.ops.erase (.add slot)), bare .ok)
    | .live f born mark =>
      if mark then (s, bare .alreadyStaged)
      else if Config.maxOps ≤ s.ops.length then (s, bare .opsFull)
      else ((s.putTable (s.table.set slot (.live f born true))).putOps (s.ops ++ [.remove slot]), bare .ok)
    | .free => (s, bare .notLive)
    | .retiring _ _ => (s, bare .notLive)

/-- REMOVE at the edit controller (R121). -/
def removeOwner (p : Port) (slot : Nat) (s : State) : Answer :=
  if s.isOwner p then .ok (removeBody slot (s.restartIdle p)) else .ok (s, bare .notOwner)

/-- REMOVE (R121 to R123). -/
def execRemove (p : Port) (slot : Byte) (s : State) : Host.Outcome State Fault Refusal :=
  s.pointOfAction p .remove [slot] (removeOwner p slot.toNat)

/-! ### COMMIT (R124 to R127) -/

/-- The response to a COMMIT that an ADD op refuses (R126, R177). -/
def CommitRefusal.response : CommitRefusal → Response
  | .incomplete slot count => ⟨.incomplete, field1 slot ++ field1 count⟩
  | .sumMismatch slot sum => ⟨.sumMismatch, field1 slot ++ field2 sum.toNat⟩

/-- COMMIT from the owner (R124 to R127). -/
def commitBody (s : State) : State × Response :=
  if s.ops = [] then (s.endSession, ⟨.ok, field2 s.gen.current⟩)
  else if s.gen.superseded.isSome then (s, bare .priorDraining)
  else
    match checkOps s.table s.store s.ops with
    | some refusal => (s, refusal.response)
    | none => (s.commitStep.endSession, ⟨.ok, field2 (nextGeneration s.gen.current)⟩)

/-- COMMIT at the edit controller (R124). -/
def commitOwner (p : Port) (s : State) : Answer :=
  if s.isOwner p then
    if !tableInStore s.table then .error .outsideStore else .ok (commitBody (s.restartIdle p))
  else .ok (s, bare .notOwner)

/-- COMMIT (R124 to R127). -/
def execCommit (p : Port) (s : State) : Host.Outcome State Fault Refusal := s.pointOfAction p .commit [] (commitOwner p)

/-! ### ABORT (R128, R129) -/

/-- ABORT at the edit controller: the owner's session is released, a queued port leaves the queue. -/
def abortOwner (p : Port) (s : State) : Answer :=
  if s.isOwner p then .ok (s.release, bare .ok)
  else if p ∈ s.edit.claimQueue then .ok (s.leaveQueue p, bare .ok)
  else .ok (s, bare .notOwner)

/-- ABORT (R128, R129). -/
def execAbort (p : Port) (s : State) : Host.Outcome State Fault Refusal := s.pointOfAction p .abort [] (abortOwner p)

/-! ### RELOAD (R130, R151) -/

/-- A stream unit at RELOAD: IDLE, counter 0, both slots EMPTY; the settings are kept (R63). -/
def StreamUnit.reload (u : StreamUnit) : StreamUnit := { u with state := .idle, counter := 0, slots := ⟨.empty, .empty⟩ }

/-- An accepted RELOAD: every block takes its effect of R151 and the load begins at the header (R136). -/
def State.reload (s : State) : State :=
  { s with
    streams := PerPort.tabulate (fun p => (s.streams.get p).reload)
    xmc := s.xmc.reload
    table := emptyTable
    store := s.store.restart
    gen := GenControl.reset
    edit := EditControl.reset
    loader := s.loader.restart
    notices := PerPort.tabulate (fun p => (s.notices.get p).clear) }.beginLoad

/-- RELOAD at the edit controller and the loader (R130, R151); the loader's request is granted at once when the controller is
idle (R83). -/
def reloadOwner (p : Port) (s : State) : Answer :=
  if s.isOwner p then .ok (s.reload.grant, bare .ok) else .ok (s, bare .notOwner)

/-- RELOAD (R151). -/
def execReload (p : Port) (s : State) : Host.Outcome State Fault Refusal := s.pointOfAction p .reload [] (reloadOwner p)

end Sys2Proof.Machine
end

