-- ==== Sys2Proof/Machine/FetchRequests.lean ====
section
/-! DEFINITION. The requests the stream unit owns (file 03): SEEK, NEXT, PORT_SET. -/

namespace Sys2Proof.Machine

/-! ### SEEK (R50) -/

/-- SEEK at its owner (R50). -/
def seekOwner (p : Port) (line : Nat) (s : State) : Answer :=
  if (s.streams.get p).settings.viewLines ≤ line then .ok (s, bare .outOfView)
  else if !tableInStore s.table then .error .outsideStore
  else .ok ((s.openStream p line).grant, ⟨.ok, field2 s.gen.current⟩)

/-- SEEK (R50). -/
def execSeek (p : Port) (line : BitVec 24) (s : State) : Host.Outcome State Fault Refusal :=
  s.pointOfAction p .seek (seekPayload line) (seekOwner p line.toNat)

/-! ### NEXT (R52 to R56) -/

/-- The DATA response (R58, R178). -/
def dataResponse (portLine : Nat) (source : Source) (generation : Nat) (data : List Byte) : Response :=
  ⟨.data, field3 portLine ++ field1 (sourceCode source) ++ field2 generation ++ data⟩

/-- A NEXT that delivers (R53): the DATA response from the delivered line, the advance, and the grant that follows the
requests it placed (R67). -/
def nextDelivers (p : Port) (line : Nat) (source : Source) (data : List Byte) (s : State) : State × Response :=
  ((s.advance p).grant, dataResponse line source (s.boundGeneration p) data)

/-- NEXT in STREAMING by the state of the delivery slot (R53 to R56). An EMPTY slot is filled by lookup first: an overlay hit
delivers, a miss has placed a request and answers PENDING. -/
def nextStreaming (p : Port) (s : State) : State × Response :=
  let u := s.streams.get p
  match u.deliverySlot with
  | .ready line source data => nextDelivers p line source data s
  | .waiting _ => (s, bare .pending)
  | .faulted line => (s.putSlot p u.delivery .empty, ⟨.memFault, field3 (u.settings.physical line)⟩)
  | .empty =>
    let s1 := s.fillSlot p u.delivery u.counter
    match (s1.streams.get p).deliverySlot with
    | .ready line source data => nextDelivers p line source data s1
    | _ => (s1.grant, bare .pending)

/-- NEXT at its owner (R52 to R56). -/
def nextOwner (p : Port) (s : State) : Answer :=
  match (s.streams.get p).state with
  | .idle => .ok (s, bare .noStream)
  | .locked => .ok (s, bare .endOfView)
  | .stale _ => .ok (s, bare .stale)
  | .streaming => if !tableInStore s.table then .error .outsideStore else .ok (nextStreaming p s)

/-- NEXT (R52 to R56). -/
def execNext (p : Port) (s : State) : Host.Outcome State Fault Refusal := s.pointOfAction p .next [] (nextOwner p)

/-! ### PORT_SET (R60) -/

/-- A value of PORT_SET is out of range (R60 step 2). -/
def portSetBadArg (level prefetch mask viewBase viewSize : Byte) : Bool :=
  decide (3 < level.toNat) || decide (1 < prefetch.toNat) || decide (32 ≤ mask.toNat)
    || decide (Config.viewUnits < viewBase.toNat + viewSizeOf viewSize.toNat)

/-- The settings PORT_SET applies (R60 step 3). -/
def portSetSettings (level prefetch viewBase viewSize : Byte) : Settings :=
  ⟨viewBase.toNat, viewSizeOf viewSize.toNat, level.toNat, decide (prefetch.toNat = 1)⟩

/-- The stream is open: STREAMING or LOCKED (R60 step 1). -/
def StreamUnit.isOpen (u : StreamUnit) : Bool :=
  match u.state with
  | .streaming | .locked => true
  | .idle | .stale _ => false

/-- PORT_SET at its owner (R60). -/
def portSetOwner (p : Port) (level prefetch mask viewBase viewSize : Byte) (s : State) : Answer :=
  if (s.streams.get p).isOpen then .ok (s, bare .streamOpen)
  else if portSetBadArg level prefetch mask viewBase viewSize then .ok (s, bare .badArg)
  else
    .ok ((s.putSettings p (portSetSettings level prefetch viewBase viewSize)).putNotice p
        { s.notices.get p with mask := mask.setWidth 5 },
      bare .ok)

/-- PORT_SET (R60). -/
def execPortSet (p : Port) (level prefetch mask viewBase viewSize : Byte) (s : State) :
    Host.Outcome State Fault Refusal :=
  s.pointOfAction p .portSet (portSetPayload level prefetch mask viewBase viewSize)
    (portSetOwner p level prefetch mask viewBase viewSize)

end Sys2Proof.Machine
end

