-- ==== Sys2Proof/Machine/LinkEvents.lean ====
section
/-! DEFINITION. The events of a host link that are no request: refused frames (R168) and the select, byte and release events
of R166. -/

namespace Sys2Proof.Machine

/-- BAD_FRAME (R168): counted as a link error, answered without payload. -/
def execBadFrame (p : Port) (s : State) : Host.Outcome State Fault Refusal :=
  if s.frameAt p = some .badFrame then
    .next ((s.putLink p (s.links.get p).countError).respond p (bare .badFrame))
  else .next s

/-- BAD_KIND (R168): not counted. -/
def execBadKind (p : Port) (s : State) : Host.Outcome State Fault Refusal :=
  if s.frameAt p = some .badKind then .next (s.respond p (bare .badKind)) else .next s

/-- A falling edge of HLn_SEL: an IDLE link whose select was released enters REQUEST, but not while a device reset lasts
(R166, R184, R187). -/
def HostLink.assertSelect (inReset : Bool) (l : HostLink) : HostLink :=
  if l.selected then l
  else if inReset then { l with selected := true }
  else
    match l.phase with
    | .idle => { l with phase := .request 0 0 [], selected := true, lastSent := none }
    | _ => { l with selected := true }

/-- SELECT_ASSERTED (R166). -/
def execSelectAsserted (p : Port) (s : State) : Host.Outcome State Fault Refusal :=
  .next (s.putLink p ((s.links.get p).assertSelect s.inReset))

/-- A byte clocked on a link (R166): received in REQUEST (R167), the next response byte sent in RESPONSE (R172), without
effect in IDLE and DONE. -/
def HostLink.clockByte (l : HostLink) (b : Byte) : HostLink :=
  match l.phase with
  | .request count sum kept => { l with phase := Phase.receive count sum kept b }
  | .response _ => l.send
  | .idle => l
  | .done => l

/-- BYTE_RECEIVED (R167, R187). -/
def execByteReceived (p : Port) (firstSample secondSample : BitVec 4) (s : State) : Host.Outcome State Fault Refusal :=
  .next (s.putLink p ((s.links.get p).clockByte (byteOfSamples firstSample secondSample)))

/-- BYTE_SENT (R172); outside RESPONSE the hub sends no byte (R166, log entry 3). -/
def execByteSent (p : Port) (s : State) : Host.Outcome State Fault Refusal := .next (s.putLink p (s.links.get p).send)

/-- FRAME_DISCARDED (R169): select released in REQUEST; the frame is dropped and counted. In another phase the event cannot
occur (log entry 3). -/
def execFrameDiscarded (p : Port) (s : State) : Host.Outcome State Fault Refusal :=
  match (s.links.get p).phase with
  | .request _ _ _ => .next (s.putLink p (s.links.get p).countError.release)
  | _ => .next s

/-- RESPONSE_LOST (R172): select released in RESPONSE; the unsent bytes are dropped and nothing is counted. In another phase
the event cannot occur (log entry 3). -/
def execResponseLost (p : Port) (s : State) : Host.Outcome State Fault Refusal :=
  match (s.links.get p).phase with
  | .response _ => .next (s.putLink p (s.links.get p).release)
  | _ => .next s

/-- A rising edge of HLn_SEL in any phase (R166, last column): the frame of a REQUEST is discarded and counted, a response is
lost, and the link is IDLE (log entry 4). -/
def HostLink.selectReleased (l : HostLink) : HostLink :=
  match l.phase with
  | .request _ _ _ => l.countError.release
  | .response _ => l.release
  | .done => l.release
  | .idle => l.release

/-- SELECT_RELEASED (R166). -/
def execSelectReleased (p : Port) (s : State) : Host.Outcome State Fault Refusal :=
  .next (s.putLink p (s.links.get p).selectReleased)

end Sys2Proof.Machine
end

