-- ==== Sys2Proof/Machine/ReadEnd.lean ====
section
/-! DEFINITION. The end of a line read (R73, R74): the fault is counted, the result handed over or discarded, the
controller becomes idle and the next grant follows, in one operation. -/

namespace Sys2Proof.Machine

/-- The 32 bytes of a line from its 16 halfwords: halfword k gives bytes 2k (low half) and 2k + 1 (R71). -/
def bytesOfHalfwords : List Halfword → List Byte
  | [] => []
  | h :: hs => h.setWidth 8 :: (h >>> 8).setWidth 8 :: bytesOfHalfwords hs

/-- A WAITING slot takes a result: READY with the data, or FAULTED (R47). -/
def LineSlot.receive (x : LineSlot) (result : Option (List Byte)) : LineSlot :=
  match x with
  | .waiting line =>
    match result with
    | some data => .ready line .memory data
    | none => .faulted line
  | other => other

/-- The result of a read that is not orphaned goes to its requester (R47, R74); `none` is a fault. -/
def State.handOver (s : State) (q : Requester) (result : Option (List Byte)) : State :=
  match q with
  | .slot p k => s.putSlot p k (((s.streams.get p).slots.get k).receive result)
  | .loader =>
    match result with
    | some data => s.loaderData data
    | none => s.loaderFault

/-- A read ends, with its data or as a fault (R73). -/
def State.endRead (s : State) (r : Read) (result : Option (List Byte)) : State :=
  let x := s.xmc.clearRead
  let s1 := s.putXmc (if result.isNone then x.recordFault r.line else x)
  (if r.orphan then s1 else s1.handOver r.requester result).grant

/-- Some store line the end of this read would write does not exist (log entry 2). -/
def State.endReadOutsideStore (s : State) (r : Read) (result : Option (List Byte)) : Bool :=
  !r.orphan && decide (r.requester = .loader) && result.isSome && !s.loaderInStore

end Sys2Proof.Machine
end

