-- ==== Sys2Proof/Machine/MemoryEvents.lean ====
section
/-! DEFINITION. The events of the external memory port: ACCESS_COMPLETES (R71) and READY_LIMIT_EXCEEDED (R72). -/

namespace Sys2Proof.Machine

/-- ACCESS_COMPLETES (R71, R73): the halfword joins the read; the sixteenth ends it with data. While no read is in flight no
access is under way and XRDY is ignored (R189). -/
def execAccessCompletes (xd : Halfword) (s : State) : Host.Outcome State Fault Refusal :=
  match s.xmc.inFlight with
  | none => .next s
  | some r =>
    let hs := r.halfwords ++ [xd]
    if hs.length < Config.accessesPerLine then
      .next (s.putXmc { s.xmc with inFlight := some { r with halfwords := hs } })
    else if s.endReadOutsideStore r (some (bytesOfHalfwords hs)) then .fault .outsideStore
    else .next (s.endRead r (some (bytesOfHalfwords hs)))

/-- READY_LIMIT_EXCEEDED (R72, R73): the line read ends at once as a fault. While no read is in flight no access is under
way. -/
def execReadyLimitExceeded (s : State) : Host.Outcome State Fault Refusal :=
  match s.xmc.inFlight with
  | none => .next s
  | some r => .next (s.endRead r none)

end Sys2Proof.Machine
end

