-- ==== Sys2Proof/Machine/QueryRequests.lean ====
section
/-! DEFINITION. The requests that report: STATUS (R179), TABLE_READ (R21, R180), NOTICE_TAKE (R158, R181). -/

namespace Sys2Proof.Machine

/-! ### STATUS (R179) -/

/-- The counter field: the close line in STALE, else the stream counter (R61). -/
def StreamUnit.reportedCounter (u : StreamUnit) : Nat :=
  match u.state with
  | .stale closeLine => closeLine
  | .idle | .streaming | .locked => u.counter

/-- Bytes 0 to 9: the stream and the generations (R61, R102). -/
def statusStream (p : Port) (s : State) : List Byte :=
  field1 (streamStateCode (s.streams.get p).state) ++ field3 (s.streams.get p).reportedCounter
    ++ generationField (s.gen.bindings.get p) ++ field2 s.gen.current ++ generationField s.gen.superseded

/-- Bytes 10 to 18: the load state and report (R147). -/
def statusLoad (s : State) : List Byte :=
  let r := s.loader.report
  fieldFlag s.loader.ready ++ field1 (loadResultCode r.result) ++ field1 (headerCauseCode r.headerCause)
    ++ field1 r.placed ++ field1 r.skipped
    ++ (match r.firstSkip with
        | none => [0xFF, 0]
        | some (i, cause) => field1 i ++ field1 (skipCauseCode cause))
    ++ field2 r.tag.toNat

/-- Bytes 19 to 22: the session and the notices (R133, R163). -/
def statusSession (p : Port) (s : State) : List Byte :=
  (match s.edit.session with
    | none => [0xFF]
    | some ses => field1 (portIndex ses.owner))
    ++ fieldFlag (decide (p ∈ s.edit.claimQueue)) ++ field1 (s.notices.get p).queue.length
    ++ fieldFlag (s.notices.get p).overflow

/-- Bytes 23 to 33: faults, link errors, store and table (R79, R170, R25, R22). -/
def statusBlocks (p : Port) (s : State) : List Byte :=
  field2 s.xmc.faults ++ field3 s.xmc.lastFault ++ field1 (s.links.get p).errors ++ field2 (freeTotal s.store.freeList)
    ++ field2 (largestExtent s.store.freeList) ++ field1 (liveCount s.table)

/-- Bytes 34 to 38: the settings and the attention mask (R61, R161). -/
def statusSettings (p : Port) (s : State) : List Byte :=
  let v := (s.streams.get p).settings
  field1 v.viewBase ++ field1 v.viewSize ++ field1 v.level ++ fieldFlag v.prefetch ++ field1 (s.notices.get p).mask.toNat

/-- The STATUS payload (R179). -/
def statusPayload (p : Port) (s : State) : List Byte :=
  statusStream p s ++ statusLoad s ++ statusSession p s ++ statusBlocks p s ++ statusSettings p s

/-- STATUS at the host link (R179). -/
def statusOwner (p : Port) (s : State) : Answer := .ok (s, ⟨.ok, statusPayload p s⟩)

/-- STATUS (R179). -/
def execStatus (p : Port) (s : State) : Host.Outcome State Fault Refusal := s.pointOfAction p .status [] (statusOwner p)

/-! ### TABLE_READ (R21, R180) -/

/-- The reported fields of an entry that is not FREE, with its state code, born generation, mark and fill count (R21, R180). -/
def entryPayload (stateCode : Nat) (f : EntryFields) (born : Nat) (mark : Bool) (count : Nat) : List Byte :=
  field1 stateCode ++ field2 f.tag.toNat ++ field3 f.matchLine ++ field1 f.length ++ field1 f.scope.toNat
    ++ field2 f.storeLine ++ field2 born ++ field1 (originCode f.origin) ++ field2 f.contentSum.toNat ++ fieldFlag mark
    ++ field1 count

/-- The TABLE_READ payload: the slot, then the record with absent fields as zero (R1, R21, R180). -/
def tableReadPayload (slot : Nat) (e : Entry) : List Byte :=
  field1 slot ++
    match e with
    | .free => List.replicate 17 0
    | .staged f fillMap => entryPayload 1 f 0 false (fillCount fillMap)
    | .live f born mark => entryPayload 2 f born mark 0
    | .retiring f born => entryPayload 3 f born false 0

/-- TABLE_READ at the overlay table (R21). -/
def tableReadOwner (slot : Nat) (s : State) : Answer :=
  if Config.tableSlots ≤ slot then .ok (s, bare .badArg)
  else .ok (s, ⟨.ok, tableReadPayload slot (entryAt s.table slot)⟩)

/-- TABLE_READ (R21). -/
def execTableRead (p : Port) (slot : Byte) (s : State) : Host.Outcome State Fault Refusal :=
  s.pointOfAction p .tableRead [slot] (tableReadOwner slot.toNat)

/-! ### NOTICE_TAKE (R158, R181) -/

/-- NOTICE_TAKE at the notice unit (R158): the notice, the remaining count, and the flag as it stood before the take. -/
def noticeTakeOwner (p : Port) (s : State) : Answer :=
  let u := s.notices.get p
  match u.queue with
  | [] => .ok (s, bare .empty)
  | n :: rest =>
    .ok (s.putNotice p u.takeHead, ⟨.ok, noticeBytes n ++ field1 rest.length ++ fieldFlag u.overflow⟩)

/-- NOTICE_TAKE (R158). -/
def execNoticeTake (p : Port) (s : State) : Host.Outcome State Fault Refusal :=
  s.pointOfAction p .noticeTake [] (noticeTakeOwner p)

end Sys2Proof.Machine
end

