-- ==== Sys2Proof/Machine/Resets.lean ====
section
/-! DEFINITION. PORT_RESET (R182), DEVICE_RESET (R153) and RESET_END (R188). -/

namespace Sys2Proof.Machine

/-! ### PORT_RESET (R182) -/

/-- The edit controller's part (R131): the owner's session is released with handover, a queued port leaves the queue. -/
def State.resetSessionPart (s : State) (p : Port) : State :=
  if s.isOwner p then s.release else if p ∈ s.edit.claimQueue then s.leaveQueue p else s

/-- The stream unit's and generation control's part (R62, R89): the stream closed IDLE and unbound. -/
def State.resetStreamPart (s : State) (p : Port) : State := (s.closeIdle p).rebind p none

/-- The notice unit's part: queue emptied and flag clear, the mask from the port defaults record (R164). -/
def State.resetNoticePart (s : State) (p : Port) : State :=
  s.putNotice p { (s.notices.get p).clear with mask := (s.loader.defaults.ports.get p).mask }

/-- PORT_RESET of port `p`, all parts in one operation (R182). -/
def State.portReset (s : State) (p : Port) : State :=
  let s1 := ((s.resetStreamPart p).resetSessionPart p).resetNoticePart p
  let s2 := s1.putSettings p (s1.loader.defaults.ports.get p).settings
  s2.putLink p { s2.links.get p with errors := 0 }

/-- PORT_RESET is never refused (R182). -/
def portResetOwner (p : Port) (s : State) : Answer := .ok (s.portReset p, bare .ok)

/-- PORT_RESET (R182). -/
def execPortReset (p : Port) (s : State) : Host.Outcome State Fault Refusal :=
  s.pointOfAction p .portReset [] (portResetOwner p)

/-! ### DEVICE_RESET and RESET_END -/

/-- A link at device reset: IDLE with counter 0; the level of HLn_SEL is the host's (R166, R184). -/
def HostLink.deviceReset (l : HostLink) : HostLink := ⟨.idle, 0, l.selected, none⟩

/-- Every block at its reset values, any load, exchange and external access abandoned (R153, R154). The sampled straps stand
until the reset ends (R134). -/
def State.deviceReset (s : State) : State :=
  { s with
    streams := ⟨StreamUnit.reset, StreamUnit.reset, StreamUnit.reset, StreamUnit.reset⟩
    xmc := Xmc.reset
    table := emptyTable
    store := s.store.restart
    gen := GenControl.reset
    edit := EditControl.reset
    loader := { s.loader.restart with defaults := Defaults.builtIn }
    notices := ⟨NoticeUnit.reset, NoticeUnit.reset, NoticeUnit.reset, NoticeUnit.reset⟩
    links := PerPort.tabulate (fun p => (s.links.get p).deviceReset)
    inReset := true }

/-- DEVICE_RESET (R153). -/
def execDeviceReset (s : State) : Host.Outcome State Fault Refusal := .next s.deviceReset

/-- The reset ends: the straps are sampled and the load begins at the header (R134, R153, R188). -/
def State.resetEnd (s : State) (straps : BitVec 2) : State :=
  (((s.putInReset false).putLoader { s.loader with dirsel := straps }).beginLoad).grant

/-- RESET_END (R188); outside a device reset nothing ends (log entry 3). -/
def execResetEnd (straps : BitVec 2) (s : State) : Host.Outcome State Fault Refusal :=
  if s.inReset then .next (s.resetEnd straps) else .next s

end Sys2Proof.Machine
end

