-- ==== Sys2Proof/Machine/Timers.lean ====
section
/-! DEFINITION. The timebase tick and the two expiries: TIMEBASE_TICK (R98, R115), DRAIN_EXPIRY (R100), SESSION_EXPIRY
(R116). -/

namespace Sys2Proof.Machine

/-- The timer has reached its limit (R98, R115). -/
def Timer.due (t : Timer) : Bool := decide (t.limit * Config.ticksPerUnit ≤ t.elapsed)

/-- One tick; a timer that has reached its limit waits for its expiry (log entry 6). -/
def Timer.tick (t : Timer) : Timer := if t.due then t else { t with elapsed := t.elapsed + 1 }

/-- TIMEBASE_TICK: the running drain timer and the running session idle timer advance (R98, R115). -/
def execTimebaseTick (s : State) : Host.Outcome State Fault Refusal :=
  .next
    ((s.putGen { s.gen with drainTimer := s.gen.drainTimer.map Timer.tick }).putEdit
      { s.edit with session := s.edit.session.map (fun ses => { ses with idleTimer := ses.idleTimer.tick }) })

/-- The drain timer has reached its limit while S exists: the S that expires (R100). -/
def State.drainDue (s : State) : Option Nat :=
  match s.gen.superseded, s.gen.drainTimer with
  | some sup, some t => if t.due then some sup else none
  | _, _ => none

/-- The expiry on one port: if it is bound to S, its stream is closed STALE, it is unbound, and it is handed STREAM_STALE
(R100 steps 1 to 3). -/
def State.expirePort (s : State) (sup : Nat) (p : Port) : State :=
  if s.gen.bindings.get p = some sup then
    let s1 := s.closeStale p
    (s1.putGen { s1.gen with bindings := s1.gen.bindings.set p none }).hand p
      (.streamStale sup (s.streams.get p).counter)
  else s

/-- DRAIN_EXPIRY (R100); while no drain timer has reached its limit there is no expiry (log entry 3). -/
def execDrainExpiry (s : State) : Host.Outcome State Fault Refusal :=
  match s.drainDue with
  | none => .next s
  | some sup => .next (allPorts.foldl (fun s p => s.expirePort sup p) s).drainEnd

/-- The owner of a session whose idle timer has reached its limit (R116). -/
def State.sessionDue (s : State) : Option Port :=
  match s.edit.session with
  | none => none
  | some ses => if ses.idleTimer.due then some ses.owner else none

/-- SESSION_EXPIRY (R116): SESSION_EXPIRED to the owner, then the release and the handover; while no idle timer has reached its
limit there is no expiry (log entry 3). -/
def execSessionExpiry (s : State) : Host.Outcome State Fault Refusal :=
  match s.sessionDue with
  | none => .next s
  | some p => .next (s.hand p (.sessionExpired s.gen.current)).release

end Sys2Proof.Machine
end

