-- ==== Sys2Proof/Machine/Dispatch.lean ====
section
/-! DEFINITION. The meaning of each command: its effect on everything but the queue. -/

namespace Sys2Proof.Machine

def exec (i : Instr) (s : State) : Host.Outcome State Fault Refusal :=
  match i with
  | .seek p line => Sys2Proof.Machine.execSeek p line s
  | .next p => Sys2Proof.Machine.execNext p s
  | .portSet p level prefetch mask viewBase viewSize => Sys2Proof.Machine.execPortSet p level prefetch mask viewBase viewSize s
  | .status p => Sys2Proof.Machine.execStatus p s
  | .tableRead p slot => Sys2Proof.Machine.execTableRead p slot s
  | .noticeTake p => Sys2Proof.Machine.execNoticeTake p s
  | .claim p wait => Sys2Proof.Machine.execClaim p wait s
  | .add p tag matchLine length scope contentSum => Sys2Proof.Machine.execAdd p tag matchLine length scope contentSum s
  | .fill p slot index data => Sys2Proof.Machine.execFill p slot index data s
  | .remove p slot => Sys2Proof.Machine.execRemove p slot s
  | .commit p => Sys2Proof.Machine.execCommit p s
  | .abort p => Sys2Proof.Machine.execAbort p s
  | .reload p => Sys2Proof.Machine.execReload p s
  | .portReset p => Sys2Proof.Machine.execPortReset p s
  | .badFrame p => Sys2Proof.Machine.execBadFrame p s
  | .badKind p => Sys2Proof.Machine.execBadKind p s
  | .selectAsserted p => Sys2Proof.Machine.execSelectAsserted p s
  | .frameDiscarded p => Sys2Proof.Machine.execFrameDiscarded p s
  | .responseLost p => Sys2Proof.Machine.execResponseLost p s
  | .deviceReset => Sys2Proof.Machine.execDeviceReset s
  | .resetEnd straps => Sys2Proof.Machine.execResetEnd straps s
  | .timebaseTick => Sys2Proof.Machine.execTimebaseTick s
  | .drainExpiry => Sys2Proof.Machine.execDrainExpiry s
  | .sessionExpiry => Sys2Proof.Machine.execSessionExpiry s
  | .accessCompletes xd => Sys2Proof.Machine.execAccessCompletes xd s
  | .readyLimitExceeded => Sys2Proof.Machine.execReadyLimitExceeded s
  | .byteReceived p firstSample secondSample => Sys2Proof.Machine.execByteReceived p firstSample secondSample s
  | .byteSent p => Sys2Proof.Machine.execByteSent p s
  | .selectReleased p => Sys2Proof.Machine.execSelectReleased p s

end Sys2Proof.Machine
end

