-- ==== Sys2Proof/Machine/Flags.lean ====
section
/-! DEFINITION. The block's outputs and flags that are functions of the state: the attention lines, the external memory
port's address and select, and what the hub drives on the links' data lines. -/

namespace Sys2Proof.Machine

/-- A kind is in the attention mask (R161). -/
def NoticeUnit.masked (u : NoticeUnit) (n : Notice) : Bool := u.mask.getLsbD (noticeKind n)

/-- HLn_ATN: asserted while a queued notice's kind is in the mask, or the overflow flag is set (R162). -/
def NoticeUnit.attention (u : NoticeUnit) : Bool := u.queue.any u.masked || u.overflow

/-- The attention line of port `p` (R162). -/
def State.attention (s : State) (p : Port) : Bool := (s.notices.get p).attention

/-- The points of the access cycle of a line read that R189 tells apart. No command of the table names the beginning of an
access, so they are an argument of the output, not a part of State (log entry 25). -/
inductive AccessPoint where
  /-- From a grant, or from a completion, to the beginning of the next access, and from the end of the ready limit on: XCSn and
  XOEn are released, after a completion for at least 20 ns. -/
  | between
  /-- XCSn has fallen for the next access of the read in flight, and neither its completion nor the end of the ready limit has
  been taken. -/
  | underWay
  deriving DecidableEq, Repr

/-- The access under way at a point of the access cycle, as its line read and the accesses of it already completed; none between
two accesses, while the controller is idle, and while a device reset lasts (R189). -/
def State.accessUnderWay (s : State) (point : AccessPoint) : Option Read :=
  if s.inReset then none
  else
    match point with
    | .between => none
    | .underWay => s.xmc.inFlight

/-- XCSn and XOEn asserted: an access is under way (R71, R189). -/
def State.memorySelected (s : State) (point : AccessPoint) : Bool := (s.accessUnderWay point).isSome

/-- The physical byte address of the halfword access under way: access k of line x is at x × 32 + 2k (R71); XA1 to XA23
carry its bits 1 to 23 (R189). `none` where no access is under way: XA1 to XA23 are inactive while the controller is idle and
while a device reset lasts, and R189 states no value for them between two accesses of a read (log entry 25). -/
def State.memoryAddress (s : State) (point : AccessPoint) : Option Nat :=
  (s.accessUnderWay point).map (fun r => r.line * Config.lineBytes + 2 * r.halfwords.length)

/-- The points of HLn_CLK inside RESPONSE that R187 tells apart. No command of the table names them, so they are an argument
of the output, not a part of State (log entry 18). -/
inductive LinkClock where
  /-- HLn_CLK has not fallen since the turnaround mark: no byte has been sent. -/
  | sinceMark
  /-- HLn_CLK has fallen since the mark, and bits 0 to 3 of the next byte have not been taken. -/
  | firstNibble
  /-- Bits 0 to 3 of the next byte have been taken, and bits 4 to 7 have not. -/
  | secondNibble
  deriving DecidableEq, Repr

/-- What the hub drives on HLn_D0 to HLn_D3 of link `p` (R187): in RESPONSE the next byte's nibbles, bits 0 to 3 before bits
4 to 7, from the falling edge that follows the mark; `none`, the lines released, before that edge, in every other phase and
while a device reset lasts. -/
def State.dataLines (s : State) (p : Port) (point : LinkClock) : Option (BitVec 4) :=
  if s.inReset then none
  else
    match (s.links.get p).phase with
    | .response (b :: _) =>
      match point with
      | .sinceMark => none
      | .firstNibble => some (nibblesOfByte b).1
      | .secondNibble => some (nibblesOfByte b).2
    | .response [] => none
    | .idle => none
    | .request _ _ _ => none
    | .done => none

/-- The hub drives HLn_D0 to HLn_D3 of link `p` (R187). -/
def State.drivesData (s : State) (p : Port) (point : LinkClock) : Bool := (s.dataLines p point).isSome

end Sys2Proof.Machine
end

