-- ==== Sys2Proof/Safety.lean ====
section
/-! DEFINITION. What counts as a sound state of the OWH4: the laws the spec states over whole states, as predicates, one for
each block, in the terms the statements use. -/

namespace Sys2Proof.Machine

/-! ### Notices (R156) -/

/-- A notice unit holds at most 8 notices, and its overflow flag is set only while its queue is not empty (R156). -/
def NoticeUnit.sound (u : NoticeUnit) : Prop :=
  u.queue.length ≤ Config.maxNotices ∧ (u.overflow = true → u.queue ≠ [])

/-- Every notice unit is sound (R156). -/
def State.noticesSound (s : State) : Prop := ∀ p, (s.notices.get p).sound

/-! ### Generations (R85, R86, R87, R90) -/

/-- A generation number: 1 to 65535 (R85). -/
def isGeneration (g : Nat) : Prop := 1 ≤ g ∧ g ≤ Config.maxGeneration

/-- C and S are generation numbers that differ, every binding is none, C or S, S exists exactly while some port is bound to it,
the drain timer runs exactly while S exists, RETIRING entries exist only while S exists, and every born generation is a
generation number (R85 to R87, R90). -/
structure State.generationsSound (s : State) : Prop where
  current : isGeneration s.gen.current
  superseded : ∀ g, s.gen.superseded = some g → isGeneration g ∧ g ≠ s.gen.current
  binding : ∀ p g, s.gen.bindings.get p = some g → g = s.gen.current ∨ s.gen.superseded = some g
  drained : ∀ g, s.gen.superseded = some g → ∃ p, s.gen.bindings.get p = some g
  timer : s.gen.drainTimer.isSome = s.gen.superseded.isSome
  retiring : s.gen.superseded = none → ∀ e ∈ s.table, e.isRetiring = false
  born : ∀ e ∈ s.table, ∀ f born, (∃ mark, e = .live f born mark) ∨ e = .retiring f born → isGeneration born

/-! ### Sessions (R108, R109) -/

/-- The claim queue holds no port twice, never the owner, and nothing while no session is open (R108). -/
structure State.claimsSound (s : State) : Prop where
  nodup : s.edit.claimQueue.Nodup
  notOwner : ∀ ses, s.edit.session = some ses → ses.owner ∉ s.edit.claimQueue
  closed : s.edit.session = none → s.edit.claimQueue = []

/-- The op list's law (R109): at most 16 ops, none twice, and its ADD ops name exactly the STAGED slots and its REMOVE ops
exactly the marked LIVE slots of the 64 (R1). The origin of a STAGED entry is the owner port (R4). -/
structure State.opsSound (s : State) : Prop where
  slots : s.table.length = Config.tableSlots
  bound : s.ops.length ≤ Config.maxOps
  nodup : s.ops.Nodup
  adds : ∀ slot, Op.add slot ∈ s.ops ↔ (entryAt s.table slot).isStaged = true
  removes : ∀ slot, Op.remove slot ∈ s.ops ↔ (entryAt s.table slot).isMarked = true
  origin : ∀ f fillMap, .staged f fillMap ∈ s.table → ∃ ses, s.edit.session = some ses ∧ f.origin = .port ses.owner

/-! ### Loads -/

/-- The read in flight serves the loader and is not orphaned. -/
def Xmc.servesLoader (x : Xmc) (line : Nat) : Prop :=
  ∃ r, x.inFlight = some r ∧ r.requester = .loader ∧ r.orphan = false ∧ r.line = line

/-- The physical line the loader waits for (R136): the header's, a record's (R134), or a content line's (R144). -/
def State.loaderLine (s : State) : Option Nat :=
  match s.loader.step with
  | .idle => none
  | .header => some (headerLine s.loader.dirsel)
  | .record => some (recordLine s.loader.dirsel s.loader.recordIndex)
  | .copy d _ i => some (d.sourceLine + i)

/-- While a load is in progress no session is open, no drain runs, no stream is open or bound and C is 1; the loader waits for a
line only then; while a device reset lasts the state is LOADING and the controller has its reset values; records are processed
after a valid header, one of at most 64 it counts; the record the loader copies satisfies R2 and still has its place; and a load
outside a device reset has exactly one outstanding read for the line the loader waits for, a request of level 0 in the set or the
read in flight, while a loader that waits for none has none (R27, R28, R81, R82, R135, R136, R138, R142, R143, R153). -/
structure State.loadSound (s : State) : Prop where
  quiet : s.loader.ready = false →
    s.edit.session = none ∧ s.gen.superseded = none ∧ ∀ p, (s.streams.get p).state = .idle ∧ s.gen.bindings.get p = none
  waits : s.loader.ready = true → s.loader.step = .idle
  reset : s.inReset = true → s.loader.ready = false ∧ s.xmc = Xmc.reset
  current : s.loader.ready = false → s.gen.current = 1
  runs : s.loader.ready = false → s.inReset = false → s.loader.step ≠ .idle
  reads :
    match s.loaderLine with
    | none => s.xmc.loaderRequest = none ∧ ∀ l, ¬ s.xmc.servesLoader l
    | some line =>
      ((∃ passes, s.xmc.loaderRequest = some ⟨line, 0, passes⟩) ∧ ∀ l, ¬ s.xmc.servesLoader l)
        ∨ (s.xmc.loaderRequest = none ∧ s.xmc.servesLoader line)
  records : s.loader.step = .record ∨ (∃ d chosen i, s.loader.step = .copy d chosen i) →
    (∃ d, s.loader.pendingRecord = some d) ∧ s.loader.report.headerCause = .ok
      ∧ s.loader.recordIndex < s.loader.recordCount ∧ s.loader.recordCount ≤ 64
  copying : ∀ d chosen i, s.loader.step = .copy d chosen i →
    firstFit d.length s.store.freeList = some chosen ∧ 1 ≤ d.length ∧ d.length ≤ 64 ∧ d.matchLine + d.length ≤ 524288
      ∧ d.scope ≠ 0 ∧ i < d.length ∧ overlaps s.table d.matchLine d.length d.scope = false

/-! ### Streams (R40 to R44) -/

/-- Settings in range (R39, R44). -/
def Settings.sound (v : Settings) : Prop :=
  1 ≤ v.viewSize ∧ v.viewBase + v.viewSize ≤ Config.viewUnits ∧ v.level ≤ 3

/-- A slot is EMPTY or carries the given port line (R42). -/
def LineSlot.carries (x : LineSlot) (line : Nat) : Prop :=
  match x with
  | .empty => True
  | .waiting l => l = line
  | .ready l _ _ => l = line
  | .faulted l => l = line

/-- A stream unit and its binding are as R40, R41 and R42 say for its stream state. -/
def StreamUnit.sound (u : StreamUnit) (binding : Option Nat) : Prop :=
  u.settings.sound ∧
    match u.state with
    | .idle => u.counter = 0 ∧ u.slots = ⟨.empty, .empty⟩ ∧ binding = none
    | .stale _ => u.counter = 0 ∧ u.slots = ⟨.empty, .empty⟩ ∧ binding = none
    | .locked => u.counter = u.settings.viewLines ∧ u.slots = ⟨.empty, .empty⟩ ∧ binding ≠ none
    | .streaming =>
      u.counter < u.settings.viewLines ∧ binding ≠ none ∧ u.deliverySlot.carries u.counter
        ∧ u.aheadSlot.carries (u.counter + 1)
        ∧ (u.aheadSlot ≠ .empty → u.settings.prefetch = true ∧ u.counter + 1 < u.settings.viewLines)

/-- A defaults record's settings are in range (R135, R138). -/
def Defaults.sound (d : Defaults) : Prop := ∀ p, (d.ports.get p).settings.sound

/-- Every stream is sound, and so are the records the loader may apply. -/
structure State.streamsSound (s : State) : Prop where
  streams : ∀ p, (s.streams.get p).sound (s.gen.bindings.get p)
  defaults : s.loader.defaults.sound
  pending : ∀ d, s.loader.pendingRecord = some d → d.sound

/-! ### Store (R24, R25) -/

/-- The free extent list is ascending, with no extent empty, and none overlapping or touching the next (R25). -/
def freeListSorted : List Extent → Prop
  | [] => True
  | [e] => 1 ≤ e.length
  | e :: f :: es => 1 ≤ e.length ∧ e.start + e.length < f.start ∧ freeListSorted (f :: es)

/-- Store line `n` lies in the extent. -/
def Extent.holds (x : Extent) (n : Nat) : Bool := decide (x.start ≤ n) && decide (n < x.start + x.length)

/-- The extents of the entries that are not FREE (R24). -/
def entryExtents (t : List Entry) : List Extent := t.filterMap Entry.extent?

/-- The four conditions of R2: length 1 to 64, a range inside the physical lines, a scope that is not empty, and an extent inside
the store. -/
structure EntryFields.sound (f : EntryFields) : Prop where
  length : 1 ≤ f.length ∧ f.length ≤ 64
  range : f.matchLine + f.length ≤ 524288
  scope : f.scope ≠ 0
  store : f.storeLine + f.length ≤ 2048

/-- The free extent list is in its order (R25), its extents have a length and lie inside the store (R25), every entry that is not
FREE satisfies R2, and every store line lies in exactly one extent of the list or of an entry (R24). -/
structure State.storeSound (s : State) : Prop where
  sorted : freeListSorted s.store.freeList
  inside : ∀ x ∈ s.store.freeList ++ entryExtents s.table, 1 ≤ x.length ∧ x.start + x.length ≤ Config.storeLines
  fields : ∀ e ∈ s.table, ∀ f, e.fields? = some f → f.sound
  owned : ∀ n, n < Config.storeLines → (s.store.freeList ++ entryExtents s.table).countP (fun x => x.holds n) = 1

/-- The store's bytes are in their canonical form, and the read in flight still has an access to complete (R67). -/
def State.contentSound (s : State) : Prop :=
  Memory.wf s.store.content = true ∧
    ∀ r, s.xmc.inFlight = some r → r.halfwords.length < Config.accessesPerLine

/-! ### Table (R17) -/

/-- Two entries' ranges share no line. -/
def EntryFields.disjoint (f g : EntryFields) : Prop := rangesMeet f.matchLine f.length g.matchLine g.length = false

/-- The law of R17: for every port and every generation that exists, the visible entries cover pairwise disjoint ranges. -/
def State.visibleDisjoint (s : State) : Prop :=
  ∀ p g, g = s.gen.current ∨ s.gen.superseded = some g → ∀ i j, i < j → j < s.table.length → ∀ f f',
    (entryAt s.table i).visible? s.gen.current s.gen.superseded g p = some f →
    (entryAt s.table j).visible? s.gen.current s.gen.superseded g p = some f' → f.disjoint f'

/-- Entries the overlap check counts (R19) are pairwise disjoint where their scopes share a port. -/
def State.countedDisjoint (s : State) : Prop :=
  ∀ i j, i < j → j < s.table.length → ∀ f f',
    (entryAt s.table i).counted? = some f → (entryAt s.table j).counted? = some f' →
    f.scope &&& f'.scope ≠ 0 → f.disjoint f'

/-! ### Outstanding reads (R42, R65) -/

/-- The read in flight serves this slot and is not orphaned. -/
def Xmc.servesSlot (x : Xmc) (p : Port) (k : SlotId) (line : Nat) : Prop :=
  ∃ r, x.inFlight = some r ∧ r.requester = .slot p k ∧ r.orphan = false ∧ r.line = line

/-- A WAITING slot has one read outstanding for its line, either a request in the set or the read in flight (R42), and a slot
that is not WAITING has none (R46, R65). An idle controller has no request in the set: a grant is taken whenever it is idle and
the set is not empty (R67). -/
structure State.outstandingSound (s : State) : Prop where
  granted : s.xmc.inFlight = none → ∀ q, s.xmc.requestOf q = none
  slots : ∀ p k,
    match (s.streams.get p).slots.get k with
    | .waiting line =>
      ((∃ passes, s.xmc.slotRequest p k
            = some ⟨(s.streams.get p).settings.physical line, (s.streams.get p).settings.level, passes⟩)
          ∧ ∀ l, ¬ s.xmc.servesSlot p k l)
        ∨ (s.xmc.slotRequest p k = none ∧ s.xmc.servesSlot p k ((s.streams.get p).settings.physical line))
    | _ => s.xmc.slotRequest p k = none ∧ ∀ l, ¬ s.xmc.servesSlot p k l

/-! ### Counters -/

/-- The counters stay where R79 and R170 hold them. -/
def State.countersSound (s : State) : Prop :=
  s.xmc.faults ≤ Config.maxFaults ∧ ∀ p, (s.links.get p).errors ≤ Config.maxLinkErrors

/-! ### The table and the loads together -/

/-- Ranges are disjoint as R17 and R19 ask (R17, R19). -/
def State.rangesSound (s : State) : Prop := s.visibleDisjoint ∧ s.countedDisjoint

/-! ### What the statements speak of -/

/-- A request's effective level (R68 step 1): its level, or 0 at pass count 8. -/
def effectiveLevel (r : Request) : Nat := if 8 ≤ r.passes then 0 else r.level

/-- How many ports come before `p` in the port turn (R68 step 2). -/
def turnOf (pointer p : Port) : Nat := (portIndex p + 3 - portIndex pointer) % 4

/-- At the turnaround, link `p` holds a correct frame of this kind and payload (R168, R171). -/
def State.arrived (s : State) (p : Port) (k : Kind) (payload : List Byte) : Prop :=
  s.frameAt p = some (.correct k payload)

/-- The links of `s` with a response formed on link `p`, and nothing else of a link changed (R171). -/
def State.linksAnswering (s : State) (p : Port) (r : Response) : PerPort HostLink :=
  s.links.set p { s.links.get p with phase := .response (responseFrame r) }

/-- What a lookup under generation `g` makes of a line slot of port `p` for a port line (R16, R45): READY with the store's
bytes on a hit, WAITING on a miss. -/
def State.slotByLookup (s : State) (p : Port) (g portLine : Nat) : LineSlot :=
  match lookup s.table s.gen.current s.gen.superseded g p ((s.streams.get p).settings.physical portLine) with
  | some (_, storeLine) => .ready portLine .overlay (s.store.readLine storeLine)
  | none => .waiting portLine

/-- The request a slot places that a fill by lookup leaves WAITING: the line's physical line, the level of the settings, pass count
0 (R45, R66); none for a slot that waits for no line. -/
def Settings.requestFor (v : Settings) : LineSlot → Option Request
  | .waiting portLine => some ⟨v.physical portLine, v.level, 0⟩
  | .empty => none
  | .ready _ _ _ => none
  | .faulted _ => none

/-- Port `p` is the last port bound to S (R88, R89). -/
def State.lastOnSuperseded (s : State) (p : Port) : Prop :=
  ∃ g, s.gen.superseded = some g ∧ s.gen.bindings.get p = some g ∧ ∀ q, q ≠ p → s.gen.bindings.get q ≠ some g

/-- What the end of a drain makes of an entry (R99). -/
def Entry.afterDrain : Entry → Entry
  | .retiring _ _ => .free
  | e => e

/-- What a release of the session makes of an entry (R112). -/
def Entry.released : Entry → Entry
  | .staged _ _ => .free
  | .live f born _ => .live f born false
  | e => e

/-- The edit controller after a session has ended and been handed over, with the idle limit then held (R113). -/
def handedOver (queue : List Port) (idleLimit : Nat) : EditControl :=
  match queue with
  | [] => ⟨none, []⟩
  | p :: rest => ⟨some ⟨p, ⟨0, idleLimit⟩, []⟩, rest⟩

/-- A notice unit after a notice was handed to it: at the tail when fewer than 8 wait, else dropped with the flag set (R157). -/
def NoticeUnit.given (u : NoticeUnit) (n : Notice) : NoticeUnit :=
  if u.queue.length < 8 then ⟨u.queue ++ [n], u.overflow, u.mask⟩ else ⟨u.queue, true, u.mask⟩

/-- The notice units after a handover: the head of the queue, if any, is given SESSION_GRANTED with C (R113). -/
def grantedTo (units : PerPort NoticeUnit) (queue : List Port) (c : Nat) (p : Port) : NoticeUnit :=
  if queue.head? = some p then (units.get p).given (.sessionGranted c) else units.get p

/-- The end of a load over the state (R148): `d` becomes the port defaults record and gives every port its settings and its mask,
`report` is final, the state is READY, and every port is given LOAD_DONE with C and the report's result and counts. `x` is the
external memory controller then. -/
def State.loadEnded (s : State) (d : Defaults) (report : LoadReport) (x : Xmc) : State :=
  { s with
    streams := PerPort.tabulate (fun q => { s.streams.get q with settings := (d.ports.get q).settings })
    xmc := x
    loader := { s.loader with ready := true, report := report, defaults := d, pendingRecord := none, step := .idle }
    notices := PerPort.tabulate (fun q =>
      NoticeUnit.given ⟨(s.notices.get q).queue, (s.notices.get q).overflow, (d.ports.get q).mask⟩
        (.loadDone s.gen.current report.result report.placed report.skipped)) }

/-- `t` is `s` gone past its record with `report` as the load report, where `d` is the pending record and `x` is the controller as
the end of the read left it, idle (R73, R136, R146): the loader's request for the next record's line joins the set and takes the
grant, and its read is in flight, when the header counts another record (R67, R81); else the load has ended, COMPLETE when no
record was skipped and PARTIAL otherwise (R147, R148), and a grant is taken if the set holds a request. The record index then
rests at the record count (DESIGN CHOICE, log entry 22). -/
def State.recordDone (s : State) (d : Defaults) (report : LoadReport) (x : Xmc) (t : State) : Prop :=
  (s.loader.recordIndex + 1 < s.loader.recordCount →
    t = { s with
      xmc := { x with
        loaderRequest := some ⟨headerLine s.loader.dirsel + 1 + (s.loader.recordIndex + 1) / 2, 0, 0⟩ }.grant s.roles
      loader := { s.loader with report := report, recordIndex := s.loader.recordIndex + 1, step := .record } } ∧
    t.xmc.inFlight
      = some ⟨.loader, headerLine s.loader.dirsel + 1 + (s.loader.recordIndex + 1) / 2, [], false⟩) ∧
  (s.loader.recordCount ≤ s.loader.recordIndex + 1 →
    t = State.loadEnded { s with loader := { s.loader with recordIndex := s.loader.recordIndex + 1 } } d
      { report with result := (if report.skipped = 0 then .complete else .partialLoad) } (x.grant s.roles))

/-- The load report once record `index` is skipped for `cause` (R146). -/
def LoadReport.withSkip (r : LoadReport) (index : Nat) (cause : SkipCause) : LoadReport :=
  { r with skipped := r.skipped + 1, firstSkip := some (r.firstSkip.getD (index, cause)) }

/-- The line the loader reads with its read in flight, whose sixteenth halfword is `xd`, holds these 32 bytes (R71). -/
def Read.gives (r : Read) (xd : Halfword) (h : List Byte) : Prop :=
  r.halfwords.length = 15 ∧ h.length = 32 ∧
    ∀ j, j < 16 → byteAt h (2 * j) + 256 * byteAt h (2 * j + 1) = ((r.halfwords ++ [xd]).getD j 0).toNat

/-- The controller once its read in flight, of physical line `line`, has ended as a fault, before the grant that follows: idle, the
fault counted up to 65535 and its line recorded (R73, R79). -/
def Xmc.faulted (x : Xmc) (line : Nat) : Xmc :=
  { x with inFlight := none, faults := min 65535 (x.faults + 1), lastFault := line }

/-- The read in flight is the loader's, and its result will reach it (R73). -/
def State.loaderReads (s : State) (r : Read) : Prop :=
  s.xmc.inFlight = some r ∧ r.requester = .loader ∧ r.orphan = false

/-- Lengths of the entries that `which` selects, added up. -/
def lengthsWhere (which : Entry → Bool) (t : List Entry) : Nat := ((extentsWhere which t).map Extent.length).sum

/-- The 3-byte little-endian field at offset `i`. -/
def read3 (l : List Byte) (i : Nat) : Nat := read2 l i + 65536 * byteAt l (i + 2)

/-- Bytes clocked into link `p` one after the other, each as its two samples (R167, R187). -/
def State.clockIn (s : State) (p : Port) (bytes : List Byte) : State :=
  bytes.foldl
    (fun (s : State) (b : BitVec 8) =>
      match exec (.byteReceived p (b.setWidth 4) ((b >>> 4).setWidth 4)) s with
      | .next t => t
      | .fault _ => s
      | .refused _ => s)
    s

end Sys2Proof.Machine
end

