-- ==== Sys2Proof/WellFormed.lean ====
section
/-! DEFINITION. What the types of the commands do not say: a FILL carries exactly 32 data bytes (R120, R173). Every other
operand has its frame's width as its type, and every value of that width is a command (R175). -/

namespace Sys2Proof

/-- The command is one the hub's links can carry. -/
def Instr.wellFormed : Instr → Bool
  | .fill _ _ _ data => data.length == Config.lineBytes
  | .seek .. | .next .. | .portSet .. | .status .. | .tableRead .. | .noticeTake .. | .claim .. | .add .. | .remove ..
  | .commit .. | .abort .. | .reload .. | .portReset .. | .badFrame .. | .badKind .. | .selectAsserted ..
  | .frameDiscarded .. | .responseLost .. | .deviceReset | .resetEnd .. | .timebaseTick | .drainExpiry
  | .sessionExpiry | .accessCompletes .. | .readyLimitExceeded | .byteReceived .. | .byteSent ..
  | .selectReleased .. => true

end Sys2Proof
end

