-- ==== Sys2Proof/Certificates/Slice0/Obligations.lean ====
section
/-! DEFINITION. The statements for the provers: what each command of the OWH4 does, what it leaves, and the laws every step
keeps. Where a docstring says "the model's choice", that part rests on the log entry it names and on no rule. -/

open Sys2Proof Sys2Proof.Machine

/-! ### The step and the queue -/

/-- The step takes the command at the front of the queue whole (the host's form; file 95). -/
def Obligations.StepTakesFrontCommand : Prop :=
  ∀ (c : Instr) (s : State) (rest : List Instr), s.pending = c :: rest → step s = exec c { s with pending := rest }

/-- No command is refused, and none faults while every entry and the extent the loader writes lie inside the store (R2, log
entry 2). -/
def Obligations.CommandsCompleteInsideTheStore : Prop :=
  ∀ (c : Instr) (s : State), tableInStore s.table = true → s.loaderInStore = true → ∃ t, exec c s = .next t

/-! ### The host links -/

/-- R167, R168: the frame that spells a well-formed request, clocked in after select is asserted on an idle link, passes the
four checks with exactly its kind and payload, and only that link has changed. R175: two requests never have one kind and
payload on one port, and the payload of each kind holds its fields at the offsets of the table, multi-byte fields
little-endian. -/
def Obligations.CorrectFrameIsAccepted : Prop :=
  (∀ (c : Instr) (p : Port) (k : Kind) (payload : List Byte) (s : State),
    c.wellFormed = true → requestOf c = some (p, k, payload) → s.inReset = false →
    (s.links.get p).phase = .idle → (s.links.get p).selected = false →
    ∃ s1, exec (.selectAsserted p) s = .next s1 ∧
      (s1.clockIn p (requestFrame k payload)).arrived p k payload ∧
      ∃ l, s1.clockIn p (requestFrame k payload) = { s with links := s.links.set p l } ∧
        l.errors = (s.links.get p).errors ∧ l.selected = true) ∧
  (∀ (c c' : Instr) (r : Port × Kind × List Byte), requestOf c = some r → requestOf c' = some r → c = c') ∧
  ∀ p : Port,
    (∀ line : BitVec 24, requestOf (.seek p line) = some (p, .seek, seekPayload line) ∧
      (seekPayload line).length = 3 ∧ read3 (seekPayload line) 0 = line.toNat) ∧
    (∀ level prefetch mask viewBase viewSize : Byte, requestOf (.portSet p level prefetch mask viewBase viewSize)
      = some (p, .portSet, [level, prefetch, mask, viewBase, viewSize])) ∧
    (∀ slot : Byte, requestOf (.tableRead p slot) = some (p, .tableRead, [slot])) ∧
    (∀ wait : Byte, requestOf (.claim p wait) = some (p, .claim, [wait])) ∧
    (∀ (tag : BitVec 16) (line : BitVec 24) (length scope : Byte) (sum : BitVec 16),
      requestOf (.add p tag line length scope sum) = some (p, .add, addPayload tag line length scope sum) ∧
      (addPayload tag line length scope sum).length = 9 ∧ read2 (addPayload tag line length scope sum) 0 = tag.toNat ∧
      read3 (addPayload tag line length scope sum) 2 = line.toNat ∧
      byteAt (addPayload tag line length scope sum) 5 = length.toNat ∧
      byteAt (addPayload tag line length scope sum) 6 = scope.toNat ∧
      read2 (addPayload tag line length scope sum) 7 = sum.toNat) ∧
    (∀ (slot index : Byte) (data : List Byte), requestOf (.fill p slot index data)
      = some (p, .fill, fillPayload slot index data) ∧ fillPayload slot index data = slot :: index :: data) ∧
    (∀ slot : Byte, requestOf (.remove p slot) = some (p, .remove, [slot])) ∧
    requestOf (.next p) = some (p, .next, []) ∧ requestOf (.status p) = some (p, .status, []) ∧
    requestOf (.noticeTake p) = some (p, .noticeTake, []) ∧ requestOf (.commit p) = some (p, .commit, []) ∧
    requestOf (.abort p) = some (p, .abort, []) ∧ requestOf (.reload p) = some (p, .reload, []) ∧
    requestOf (.portReset p) = some (p, .portReset, [])

/-- R168: the four checks in their order, over every byte count, running sum and kept bytes. R173: the code and the payload
length of each kind. -/
def Obligations.FrameChecksInOrder : Prop :=
  (∀ (count : Nat) (sum : Byte) (kept : List Byte),
    (count < 2 ∨ sum ≠ 0 → checkFrame count sum kept = .badFrame) ∧
    (2 ≤ count → sum = 0 → (kept.headD 0).toNat = 0 ∨ 0x0F ≤ (kept.headD 0).toNat →
      checkFrame count sum kept = .badKind) ∧
    (∀ k, 2 ≤ count → sum = 0 → kept.headD 0 = kindCode k → count ≠ 2 + payloadLength k →
      checkFrame count sum kept = .badFrame) ∧
    (∀ k, sum = 0 → kept.headD 0 = kindCode k → count = 2 + payloadLength k →
      checkFrame count sum kept = .correct k ((kept.drop 1).take (payloadLength k))) ∧
    (2 ≤ count → sum = 0 → 1 ≤ (kept.headD 0).toNat → (kept.headD 0).toNat ≤ 0x0E → ∃ k, kept.headD 0 = kindCode k)) ∧
  ∀ k : Kind, (kindCode k, payloadLength k) =
    match k with
    | .seek => (0x01, 3)
    | .next => (0x02, 0)
    | .portSet => (0x03, 5)
    | .status => (0x04, 0)
    | .tableRead => (0x05, 1)
    | .noticeTake => (0x06, 0)
    | .claim => (0x07, 1)
    | .add => (0x08, 9)
    | .fill => (0x09, 34)
    | .remove => (0x0A, 1)
    | .commit => (0x0B, 0)
    | .abort => (0x0C, 0)
    | .reload => (0x0D, 0)
    | .portReset => (0x0E, 0)

/-- R172, R176: a response frame is the status byte, the payload and one check byte that brings the sum of its bytes to 0 modulo
256, and each status has its code of the table. R167: the frame of a request is its kind byte, its payload and such a check
byte. -/
def Obligations.FramesAreSpelled : Prop :=
  (∀ r : Response, ∃ check : Byte, responseFrame r = statusCode r.status :: r.payload ++ [check] ∧
    ((responseFrame r).map BitVec.toNat).sum % 256 = 0) ∧
  (∀ (k : Kind) (payload : List Byte), ∃ check : Byte, requestFrame k payload = kindCode k :: payload ++ [check] ∧
    ((requestFrame k payload).map BitVec.toNat).sum % 256 = 0) ∧
  ∀ st : Status, statusCode st =
    match st with
    | .ok => 0x00
    | .badFrame => 0x01
    | .badKind => 0x02
    | .badArg => 0x03
    | .notReady => 0x04
    | .data => 0x10
    | .pending => 0x11
    | .endOfView => 0x12
    | .stale => 0x13
    | .noStream => 0x14
    | .outOfView => 0x15
    | .memFault => 0x16
    | .streamOpen => 0x17
    | .empty => 0x20
    | .busy => 0x30
    | .queued => 0x31
    | .notOwner => 0x32
    | .alreadyOwner => 0x33
    | .alreadyWaiting => 0x34
    | .tableFull => 0x40
    | .noSpace => 0x41
    | .overlap => 0x42
    | .opsFull => 0x43
    | .notLive => 0x44
    | .alreadyStaged => 0x45
    | .notStaged => 0x46
    | .incomplete => 0x47
    | .sumMismatch => 0x48
    | .priorDraining => 0x49

/-- What the host link answers without an owner. R168, R170: BAD_FRAME answers 0x01 with its check byte and counts a link error
up to 255; BAD_KIND answers 0x02 with its check byte and counts none. R174, R149: while a load is in progress every request
but STATUS, TABLE_READ, NOTICE_TAKE and PORT_RESET is answered NOT_READY (0x04 and its check byte). Nothing else
changes. -/
def Obligations.LinkAnswersWithoutAnOwner : Prop :=
  ∀ (p : Port) (s : State),
    (s.frameAt p = some .badFrame →
      exec (.badFrame p) s = .next { s with
        links := s.links.set p { s.links.get p with
          phase := .response [0x01, 0xFF], errors := min 255 ((s.links.get p).errors + 1) } }) ∧
    (s.frameAt p = some .badKind →
      exec (.badKind p) s = .next { s with
        links := s.links.set p { s.links.get p with phase := .response [0x02, 0xFE] } }) ∧
    (∀ (c : Instr) (k : Kind) (payload : List Byte),
      requestOf c = some (p, k, payload) → s.arrived p k payload → s.loader.ready = false →
      k ≠ .status → k ≠ .tableRead → k ≠ .noticeTake → k ≠ .portReset →
      exec c s = .next { s with links := s.links.set p { s.links.get p with phase := .response [0x04, 0xFC] } })

/-- R166, R187, R184: select asserted on a released IDLE link starts a request with nothing received; while a device reset lasts
the link stays IDLE and only the pin is asserted. A link that finds select still asserted after a device reset stays IDLE:
a byte clocked in changes nothing. (Two parts are the model's choice: SELECT_ASSERTED on a select not yet released changes
nothing, log entry 3; and the model's own field `lastSent` is none at the start of an exchange, log entry 18.) -/
def Obligations.SelectAssertedStartsRequest : Prop :=
  ∀ (p : Port) (s : State) (lo hi : BitVec 4), (s.links.get p).phase = .idle →
    ((s.links.get p).selected = false → s.inReset = false →
      exec (.selectAsserted p) s = .next { s with
        links := s.links.set p { s.links.get p with phase := .request 0 0 [], selected := true, lastSent := none } }) ∧
    ((s.links.get p).selected = false → s.inReset = true →
      exec (.selectAsserted p) s = .next { s with
        links := s.links.set p { s.links.get p with selected := true } }) ∧
    ((s.links.get p).selected = true →
      exec (.byteReceived p lo hi) s = .next s ∧ exec (.selectAsserted p) s = .next s)

/-- R167, R187: a byte clocked in REQUEST, its first sample bits 0 to 3, is counted and summed, and kept if it is among the first
36. R172, R187: in RESPONSE the hub drives no data line before HLn_CLK has fallen after the turnaround mark, then bits 0 to 3
of the next byte, and bits 4 to 7 when those are taken; the byte is sent when both are taken, and after the last the link is
DONE. In every other phase and while a device reset lasts the lines are released. R166: a byte clocked in DONE has no effect,
and in IDLE none. Nothing else changes. (The point of the link clock is an argument of the output, and `lastSent`, the nibbles
taken, is the model's own field: the model's choice, log entry 18. That a byte clocked in RESPONSE is BYTE_SENT whatever the
samples, so BYTE_RECEIVED there does what BYTE_SENT does, is deduced, log entry 4.) -/
def Obligations.BytesOnALink : Prop :=
  ∀ (p : Port) (s : State),
    (∀ (lo hi : BitVec 4) (count : Nat) (sum : Byte) (kept : List Byte), (s.links.get p).phase = .request count sum kept →
      ∃ b : Byte, b.toNat = lo.toNat + 16 * hi.toNat ∧
        exec (.byteReceived p lo hi) s = .next { s with
          links := s.links.set p { s.links.get p with
            phase := .request (count + 1) (sum + b) (if count < 36 then kept ++ [b] else kept) } }) ∧
    (∀ (b : Byte) (rest : List Byte), (s.links.get p).phase = .response (b :: rest) →
      ∃ lo hi : BitVec 4, b.toNat = lo.toNat + 16 * hi.toNat ∧
        (s.inReset = false →
          s.dataLines p .sinceMark = none ∧ s.dataLines p .firstNibble = some lo ∧ s.dataLines p .secondNibble = some hi ∧
          s.drivesData p .sinceMark = false ∧ s.drivesData p .firstNibble = true ∧ s.drivesData p .secondNibble = true) ∧
        exec (.byteSent p) s = .next { s with
          links := s.links.set p { s.links.get p with
            phase := (if rest = [] then .done else .response rest), lastSent := some (lo, hi) } }) ∧
    (∀ (lo hi : BitVec 4) (bytes : List Byte), (s.links.get p).phase = .response bytes →
      ∃ t, exec (.byteReceived p lo hi) s = .next t ∧ exec (.byteSent p) s = .next t) ∧
    (∀ lo hi : BitVec 4, (s.links.get p).phase = .done ∨ (s.links.get p).phase = .idle →
      exec (.byteReceived p lo hi) s = .next s) ∧
    ((∀ bytes, (s.links.get p).phase ≠ .response bytes) ∨ s.inReset = true →
      ∀ point, s.dataLines p point = none ∧ s.drivesData p point = false)

/-- Select released. R169, R170: in REQUEST the frame is discarded, whatever it holds, and the link error counter rises by 1 up
to 255. R172, R170: in RESPONSE the unsent bytes are dropped and nothing is counted; the request's action stands. R166,
R184: in DONE and IDLE nothing is counted. The link is IDLE and nothing else changes. (That SELECT_RELEASED in REQUEST and
RESPONSE does what FRAME_DISCARDED and RESPONSE_LOST do is deduced, log entry 4; that the model's own field `lastSent`
becomes none is log entry 18.) -/
def Obligations.SelectReleaseByPhase : Prop :=
  ∀ (p : Port) (s : State),
    (∀ (count : Nat) (sum : Byte) (kept : List Byte), (s.links.get p).phase = .request count sum kept →
      ∃ t : State, t = { s with
          links := s.links.set p ⟨.idle, min 255 ((s.links.get p).errors + 1), false, none⟩ } ∧
        exec (.frameDiscarded p) s = .next t ∧ exec (.selectReleased p) s = .next t) ∧
    (∀ unsent : List Byte, (s.links.get p).phase = .response unsent →
      ∃ t : State, t = { s with links := s.links.set p ⟨.idle, (s.links.get p).errors, false, none⟩ } ∧
        exec (.responseLost p) s = .next t ∧ exec (.selectReleased p) s = .next t) ∧
    ((s.links.get p).phase = .done ∨ (s.links.get p).phase = .idle →
      exec (.selectReleased p) s = .next { s with
        links := s.links.set p ⟨.idle, (s.links.get p).errors, false, none⟩ })

/-! ### Streams -/

/-- R50: a SEEK to a port line not below the view line count is answered OUT_OF_VIEW. R52, R54: a NEXT in IDLE, LOCKED or STALE
is answered NO_STREAM, END or STALE, and a NEXT on a WAITING delivery slot is answered PENDING. Nothing else changes: not
the stream, not the outstanding read's place, level or pass count. -/
def Obligations.RefusedFetchesChangeNothing : Prop :=
  ∀ (p : Port) (s : State), s.loader.ready = true →
    (∀ line : BitVec 24, s.arrived p .seek (seekPayload line) →
      (s.streams.get p).settings.viewSize * 2048 ≤ line.toNat →
      exec (.seek p line) s = .next { s with links := s.linksAnswering p ⟨.outOfView, []⟩ }) ∧
    (∀ st : Status, s.arrived p .next [] →
      ((s.streams.get p).state = .idle ∧ st = .noStream ∨ (s.streams.get p).state = .locked ∧ st = .endOfView
        ∨ (∃ l, (s.streams.get p).state = .stale l) ∧ st = .stale
        ∨ ((s.streams.get p).state = .streaming ∧ tableInStore s.table = true
          ∧ ∃ l, (s.streams.get p).deliverySlot = .waiting l) ∧ st = .pending) →
      exec (.next p) s = .next { s with links := s.linksAnswering p ⟨st, []⟩ })

/-- R50, R88, R45, R67: an accepted SEEK binds the port to C and opens its stream at the named line; the delivery slot is filled
by lookup under C, and the ahead slot too when prefetch is on and the next line is in the view, else it is EMPTY. The
answer is OK with C. R75, R76, R66: the port's old requests are withdrawn, a read in flight for one of its slots is orphaned and
stays, each slot that is WAITING now has a request for its line with the port's level and pass count 0, and a grant is then taken
if the controller is idle; the other places of the set, a read for another requester, the pointer and the fault record stay but
for that grant. Nothing else changes but, at the end of a drain, S, its timer, the table and the free extent list; every byte of
the store stays. -/
def Obligations.SeekOpensStream : Prop :=
  ∀ (p : Port) (line : BitVec 24) (s : State), s.arrived p .seek (seekPayload line) → s.loader.ready = true →
    line.toNat < (s.streams.get p).settings.viewLines → tableInStore s.table = true →
    ∃ t u, exec (.seek p line) s = .next t ∧
      t = { s with
        streams := s.streams.set p u, xmc := t.xmc, table := t.table, store := t.store, gen := t.gen
        links := s.linksAnswering p ⟨.ok, field2 s.gen.current⟩ } ∧
      u.state = .streaming ∧ u.counter = line.toNat ∧ u.settings = (s.streams.get p).settings ∧
      u.deliverySlot = s.slotByLookup p s.gen.current line.toNat ∧
      u.aheadSlot =
        (if (s.streams.get p).settings.prefetch = true ∧ line.toNat + 1 < (s.streams.get p).settings.viewLines
          then s.slotByLookup p s.gen.current (line.toNat + 1) else .empty) ∧
      t.gen.current = s.gen.current ∧ t.gen.bindings = s.gen.bindings.set p (some s.gen.current) ∧
      t.xmc = { s.xmc with
        slotRequests := s.xmc.slotRequests.set p
          ⟨u.settings.requestFor u.slots.a, u.settings.requestFor u.slots.b⟩
        inFlight := s.xmc.inFlight.map (fun (r : Read) =>
          if r.requester = Requester.slot p .a ∨ r.requester = Requester.slot p .b then { r with orphan := true } else r)
        }.grant t.roles ∧
      ∀ n i, t.store.byte n i = s.store.byte n i

/-- R88, R99: an accepted SEEK of the last port bound to S ends the drain (S absent, the timer stopped, every RETIRING entry FREE
and its extent returned to the free extent list, R30), and any other accepted SEEK leaves S, the timer, the table and the
store as they were. -/
def Obligations.SeekOfLastPortEndsDrain : Prop :=
  ∀ (p : Port) (line : BitVec 24) (s : State), s.arrived p .seek (seekPayload line) → s.loader.ready = true →
    line.toNat < (s.streams.get p).settings.viewLines → tableInStore s.table = true → s.generationsSound →
    ∃ t, exec (.seek p line) s = .next t ∧
      (s.lastOnSuperseded p →
        t.gen.superseded = none ∧ t.gen.drainTimer = none ∧ t.table = s.table.map Entry.afterDrain ∧
          t.store.freeList = insertExtents (extentsWhere Entry.isRetiring s.table) s.store.freeList ∧
          freeTotal t.store.freeList = freeTotal s.store.freeList + lengthsWhere Entry.isRetiring s.table) ∧
      (¬ s.lastOnSuperseded p →
        t.gen.superseded = s.gen.superseded ∧ t.gen.drainTimer = s.gen.drainTimer ∧ t.table = s.table ∧
          t.store = s.store)

/-- R53, R49, R58: a NEXT on a READY delivery slot is answered DATA with the slot's line, source, bound generation and bytes; the
counter rises by 1; at the end of the view the stream is LOCKED with the delivered slot EMPTY; else the ahead slot takes
the delivery role, or when it was EMPTY the delivery slot is filled by lookup for the new counter, and the ahead slot is
filled for the line after when prefetch is on and that line is in the view. R49, R77: the request or the read in flight of a slot
that was the ahead slot stays with it, its line, level and pass count as they were. R66, R67: a slot filled now and WAITING has
a request for its line with the port's level and pass count 0, and a grant is then taken if the controller is idle. Nothing else
changes, in the set or elsewhere. -/
def Obligations.NextDeliversReadyLine : Prop :=
  ∀ (p : Port) (s : State) (line : Nat) (source : Source) (data : List Byte), s.arrived p .next [] →
    s.loader.ready = true → (s.streams.get p).state = .streaming → tableInStore s.table = true →
    (s.streams.get p).deliverySlot = .ready line source data →
    ∃ t u, exec (.next p) s = .next t ∧
      t = { s with
        streams := s.streams.set p u, xmc := t.xmc
        links := s.linksAnswering p
          ⟨.data, field3 line ++ [if source = .overlay then 1 else 0] ++ generationField (s.gen.bindings.get p) ++ data⟩ } ∧
      u.counter = (s.streams.get p).counter + 1 ∧ u.settings = (s.streams.get p).settings ∧
      ((s.streams.get p).counter + 1 = (s.streams.get p).settings.viewLines →
        u.state = .locked ∧ u.deliverySlot = .empty ∧ u.aheadSlot = (s.streams.get p).aheadSlot) ∧
      ((s.streams.get p).counter + 1 ≠ (s.streams.get p).settings.viewLines →
        u.state = .streaming ∧
        u.deliverySlot =
          (if (s.streams.get p).aheadSlot = .empty
            then s.slotByLookup p (s.boundGeneration p) ((s.streams.get p).counter + 1) else (s.streams.get p).aheadSlot) ∧
        u.aheadSlot =
          (if (s.streams.get p).settings.prefetch = true
              ∧ (s.streams.get p).counter + 2 < (s.streams.get p).settings.viewLines
            then s.slotByLookup p (s.boundGeneration p) ((s.streams.get p).counter + 2) else .empty)) ∧
      ∃ v : PerSlot (Option Request),
        t.xmc = { s.xmc with slotRequests := s.xmc.slotRequests.set p v }.grant t.roles ∧
        ∀ k, v.get k =
          (if k = (s.streams.get p).ahead ∧ (s.streams.get p).aheadSlot ≠ .empty then s.xmc.slotRequest p k
            else (u.settings.requestFor (u.slots.get k)).or (s.xmc.slotRequest p k))

/-- R55: a NEXT on a FAULTED delivery slot is answered MEM_FAULT with the physical line; the delivery slot becomes EMPTY, and
nothing else changes. R56: a NEXT on an EMPTY delivery slot whose line hits does exactly what it does with that slot READY (R53).
One whose line misses is answered PENDING with the slot WAITING for the line of the counter, and its read is placed again: while a
read is in flight its request joins the set, with the physical line, the port's level and pass count 0 (R66), and an idle controller
with an empty set reads the line at once (R67). Nothing else changes. -/
def Obligations.NextOnUnreadySlot : Prop :=
  ∀ (p : Port) (s : State), s.arrived p .next [] → s.loader.ready = true →
    (s.streams.get p).state = .streaming → tableInStore s.table = true →
    (∀ line, (s.streams.get p).deliverySlot = .faulted line →
      ∃ u : StreamUnit,
        u = { s.streams.get p with slots := (s.streams.get p).slots.set (s.streams.get p).delivery .empty } ∧
        exec (.next p) s = .next { s with
          streams := s.streams.set p u
          links := s.linksAnswering p ⟨.memFault, field3 ((s.streams.get p).settings.viewBase * 2048 + line)⟩ }) ∧
    ((s.streams.get p).deliverySlot = .empty →
      s.slotByLookup p (s.boundGeneration p) (s.streams.get p).counter = .waiting (s.streams.get p).counter →
      ∃ t u, exec (.next p) s = .next t ∧
        u = { s.streams.get p with
          slots := (s.streams.get p).slots.set (s.streams.get p).delivery (.waiting (s.streams.get p).counter) } ∧
        t = { s with
          streams := s.streams.set p u, xmc := t.xmc
          links := s.linksAnswering p ⟨.pending, []⟩ } ∧
        t.xmc = { s.xmc with
          slotRequests := s.xmc.slotRequests.set p ((s.xmc.slotRequests.get p).set (s.streams.get p).delivery
            (some ⟨(s.streams.get p).settings.physical (s.streams.get p).counter, (s.streams.get p).settings.level, 0⟩)) }.grant
          s.roles ∧
        (s.xmc.inFlight ≠ none →
          t.xmc.inFlight = s.xmc.inFlight ∧ t.xmc.pointer = s.xmc.pointer ∧
          t.xmc.slotRequest p (s.streams.get p).delivery
            = some ⟨(s.streams.get p).settings.physical (s.streams.get p).counter, (s.streams.get p).settings.level, 0⟩ ∧
          ∀ q, q ≠ .slot p (s.streams.get p).delivery → t.xmc.requestOf q = s.xmc.requestOf q) ∧
        (s.xmc.inFlight = none → (∀ q, s.xmc.requestOf q = none) →
          t.xmc.inFlight = some ⟨.slot p (s.streams.get p).delivery,
            (s.streams.get p).settings.physical (s.streams.get p).counter, [], false⟩ ∧
          t.xmc.pointer = p ∧ ∀ q, t.xmc.requestOf q = none)) ∧
    (∀ data, (s.streams.get p).deliverySlot = .empty →
      s.slotByLookup p (s.boundGeneration p) (s.streams.get p).counter
        = .ready (s.streams.get p).counter .overlay data →
      ∃ t, exec (.next p) s = .next t ∧
        exec (.next p) { s with
          streams := s.streams.set p { s.streams.get p with
            slots := (s.streams.get p).slots.set (s.streams.get p).delivery
              (.ready (s.streams.get p).counter .overlay data) } } = .next t)

/-- R60: the outcomes of PORT_SET in their order: NOT_READY while a load is in progress, STREAM_OPEN while the stream is STREAMING
or LOCKED, BAD_ARG on a value out of range, and then all five values applied in one operation; nothing else changes. -/
def Obligations.PortSetChecksThenApplies : Prop :=
  ∀ (p : Port) (level prefetch mask base size : Byte) (s : State),
    s.arrived p .portSet [level, prefetch, mask, base, size] →
    (s.loader.ready = false →
      exec (.portSet p level prefetch mask base size) s
        = .next { s with links := s.linksAnswering p ⟨.notReady, []⟩ }) ∧
    (s.loader.ready = true → (s.streams.get p).state = .streaming ∨ (s.streams.get p).state = .locked →
      exec (.portSet p level prefetch mask base size) s
        = .next { s with links := s.linksAnswering p ⟨.streamOpen, []⟩ }) ∧
    (∀ sz, sz = (if size = 0 then 256 else size.toNat) → s.loader.ready = true →
      (s.streams.get p).state ≠ .streaming → (s.streams.get p).state ≠ .locked →
      (3 < level.toNat ∨ 1 < prefetch.toNat ∨ 32 ≤ mask.toNat ∨ 256 < base.toNat + sz →
        exec (.portSet p level prefetch mask base size) s
          = .next { s with links := s.linksAnswering p ⟨.badArg, []⟩ }) ∧
      (level.toNat ≤ 3 → prefetch.toNat ≤ 1 → mask.toNat < 32 → base.toNat + sz ≤ 256 →
        ∃ m : BitVec 5, m.toNat = mask.toNat ∧
          exec (.portSet p level prefetch mask base size) s = .next { s with
            streams := s.streams.set p { s.streams.get p with
              settings := ⟨base.toNat, sz, level.toNat, decide (prefetch = 1)⟩ }
            notices := s.notices.set p { s.notices.get p with mask := m }
            links := s.linksAnswering p ⟨.ok, []⟩ }))

/-! ### External memory -/

/-- R68: a grant goes to a request of the lowest effective level in the set, to the loader's if it is among those, else to the
first port in the port turn that has one, and of that port's two to the delivery slot's. R67, R68, R69: an idle controller with
a request in the set takes a grant: the chosen request becomes the read in flight with no access completed and no orphan flag,
it leaves the set, every other request gains one pass up to 8, and the round-robin pointer moves to a granted port. No grant is
taken while a read is in flight or the set is empty: nothing then changes. -/
def Obligations.GrantChoosesAndStartsTheRead : Prop :=
  (∀ (x : Xmc) (roles : PerPort SlotId) (q : Requester) (r : Request), x.choose roles = some q → x.requestOf q = some r →
    (∀ q' r', x.requestOf q' = some r' → effectiveLevel r ≤ effectiveLevel r') ∧
    (∀ r', x.loaderRequest = some r' → q ≠ .loader → effectiveLevel r < effectiveLevel r') ∧
    (∀ p k, q = .slot p k →
      (∀ p' k' r', x.slotRequest p' k' = some r' → turnOf x.pointer p' < turnOf x.pointer p →
        effectiveLevel r < effectiveLevel r') ∧
      (∀ r', x.slotRequest p (roles.get p) = some r' → k ≠ roles.get p → effectiveLevel r < effectiveLevel r'))) ∧
  (∀ (x : Xmc) (roles : PerPort SlotId), (∃ r, x.inFlight = some r) ∨ (∀ q, x.requestOf q = none) → x.grant roles = x) ∧
  (∀ (x : Xmc) (roles : PerPort SlotId), x.inFlight = none →
    (∀ q, x.requestOf q ≠ none → ∃ q' r, x.choose roles = some q' ∧ x.requestOf q' = some r) ∧
    (∀ q r, x.choose roles = some q → x.requestOf q = some r →
      (x.grant roles).inFlight = some ⟨q, r.line, [], false⟩ ∧
      (x.grant roles).requestOf q = none ∧
      (∀ q', q' ≠ q → (x.grant roles).requestOf q'
        = (x.requestOf q').map (fun r' => ⟨r'.line, r'.level, min 8 (r'.passes + 1)⟩)) ∧
      (∀ p k, q = .slot p k → (x.grant roles).pointer = p) ∧ (q = .loader → (x.grant roles).pointer = x.pointer) ∧
      (x.grant roles).faults = x.faults ∧ (x.grant roles).lastFault = x.lastFault))

/-- R71, R189: while an access is under way the memory is selected at the byte address line × 32 + 2 × the accesses completed.
Between two accesses, from the end of a read to the next access, while the controller is idle and while a device reset lasts it
is released. R71, R73, R47: an access before the sixteenth adds its halfword to the read in flight and changes nothing else. The
sixteenth access of a read that is not orphaned makes the WAITING slot it serves READY, with source MEMORY and the 32 bytes read,
bytes 2k and 2k + 1 the low and high half of halfword k; the controller is then idle, and takes a grant if the set is not empty
(R67). Nothing else changes. (The point of the access cycle is an argument of the outputs, and that XA1 to XA23 carry no address
between two accesses is the model's choice, log entry 25.) -/
def Obligations.AccessesFillTheLine : Prop :=
  (∀ (s : State) (point : AccessPoint), point = .between ∨ s.xmc.inFlight = none ∨ s.inReset = true →
    s.memorySelected point = false ∧ s.memoryAddress point = none) ∧
  ∀ (xd : Halfword) (s : State) (r : Read), s.xmc.inFlight = some r →
    (s.inReset = false →
      s.memorySelected .underWay = true ∧ s.memoryAddress .underWay = some (r.line * 32 + 2 * r.halfwords.length)) ∧
    (r.halfwords.length < 15 →
      exec (.accessCompletes xd) s = .next { s with
        xmc := { s.xmc with inFlight := some { r with halfwords := r.halfwords ++ [xd] } } }) ∧
    (∀ (p : Port) (k : SlotId) (line : Nat), r.halfwords.length = 15 → r.orphan = false → r.requester = .slot p k →
      (s.streams.get p).slots.get k = .waiting line →
      ∃ data, r.gives xd data ∧
        exec (.accessCompletes xd) s = .next { s with
          streams := s.streams.set p { s.streams.get p with
            slots := (s.streams.get p).slots.set k (.ready line .memory data) }
          xmc := { s.xmc with inFlight := none }.grant s.roles })

/-- R72, R73, R79, R47: an access that exceeds the ready limit ends the read as a fault: the counter rises by 1 up to 65535, the
last fault line is the read's, and the WAITING slot it serves becomes FAULTED. R73, R76, R79: the end of an orphaned read reaches
no slot, not the loader and nothing else; a fault is counted, data is not. R67: in each case the controller is then idle and takes
a grant if the set is not empty, so that it reads again exactly when the set held a request. Nothing else changes. -/
def Obligations.FaultedAndOrphanedReadsEnd : Prop :=
  ∀ (s : State) (r : Read), s.xmc.inFlight = some r →
    (∀ (p : Port) (k : SlotId) (line : Nat), r.orphan = false → r.requester = .slot p k →
      (s.streams.get p).slots.get k = .waiting line →
      exec .readyLimitExceeded s = .next { s with
        streams := s.streams.set p { s.streams.get p with
          slots := (s.streams.get p).slots.set k (.faulted line) }
        xmc := (s.xmc.faulted r.line).grant s.roles }) ∧
    (r.orphan = true →
      exec .readyLimitExceeded s = .next { s with xmc := (s.xmc.faulted r.line).grant s.roles } ∧
      ∀ xd : Halfword, r.halfwords.length = 15 →
        exec (.accessCompletes xd) s = .next { s with xmc := { s.xmc with inFlight := none }.grant s.roles }) ∧
    (({ s.xmc with inFlight := none }.grant s.roles).inFlight = none ↔ ∀ q, s.xmc.requestOf q = none) ∧
    (((s.xmc.faulted r.line).grant s.roles).inFlight = none ↔ ∀ q, s.xmc.requestOf q = none)

/-! ### The overlay table -/

/-- R14: under C an entry is visible to port p exactly when it is LIVE with p in its scope. R15: under S, which is not C, exactly
when p is in its scope and it is LIVE and not born in C, or RETIRING; under any other number nothing is visible. R16: a
lookup that hits names a slot whose entry is visible and covers the line, and the store line at the same distance from the
entry's store line; it yields memory exactly when no visible entry covers the line. -/
def Obligations.LookupFindsVisibleCoveringEntry : Prop :=
  ∀ (c : Nat) (sup : Option Nat) (g : Nat) (p : Port),
    (∀ (e : Entry) (f : EntryFields), e.visible? c sup g p = some f ↔
      f.scope.getLsbD (portIndex p) = true ∧
        (g = c ∧ (∃ born mark, e = .live f born mark) ∨
          g ≠ c ∧ sup = some g ∧ ((∃ born mark, e = .live f born mark ∧ born ≠ c) ∨ ∃ born, e = .retiring f born))) ∧
    ∀ (t : List Entry) (x : Nat),
      (∀ i n, lookup t c sup g p x = some (i, n) →
        ∃ f, (entryAt t i).visible? c sup g p = some f ∧ f.matchLine ≤ x ∧ x < f.matchLine + f.length ∧
          n = f.storeLine + (x - f.matchLine)) ∧
      (lookup t c sup g p x = none ↔
        ∀ i f, i < t.length → (entryAt t i).visible? c sup g p = some f →
          ¬ (f.matchLine ≤ x ∧ x < f.matchLine + f.length))

/-- R18, commit step: for a port bound to C when the commit step is taken, every lookup gives the same answer after the step,
under the number it stays bound to, as before it. -/
def Obligations.CommitStepKeepsBoundView : Prop :=
  ∀ (s : State) (p : Port) (x : Nat), s.generationsSound → s.gen.superseded = none →
    s.gen.bindings.get p = some s.gen.current →
    lookup s.commitStep.table s.commitStep.gen.current s.commitStep.gen.superseded s.gen.current p x
        = lookup s.table s.gen.current s.gen.superseded s.gen.current p x ∧
      s.commitStep.gen.bindings.get p = some s.gen.current

/-- R185: every port line of a port's view whose lookup answers differently under N than under the generation superseded lies
between the first and the last port line of the COMMITTED notice of that port; without a notice no line differs. -/
def Obligations.ChangedLinesLieInCommittedSpan : Prop :=
  ∀ (s : State) (p : Port) (line : Nat), s.gen.superseded = none →
    line < (s.streams.get p).settings.viewLines →
    lookup s.commitStep.table s.commitStep.gen.current s.commitStep.gen.superseded s.commitStep.gen.current p
        ((s.streams.get p).settings.physical line)
      ≠ lookup s.table s.gen.current s.gen.superseded s.gen.current p ((s.streams.get p).settings.physical line) →
    ∃ first last,
      committedNotice s.table (nextGeneration s.gen.current) p (s.streams.get p).settings
        = some (.committed (nextGeneration s.gen.current) first last) ∧
      first ≤ line ∧ line ≤ last

/-- R21, R180: TABLE_READ answers an 18-byte record of the slot as the table holds it, absent fields zero, and BAD_ARG for a slot
of 64 or more; nothing changes but the link. -/
def Obligations.TableReadReportsTheSlot : Prop :=
  ∀ (p : Port) (slot : Byte) (s : State), s.arrived p .tableRead [slot] →
    (64 ≤ slot.toNat → exec (.tableRead p slot) s = .next { s with links := s.linksAnswering p ⟨.badArg, []⟩ }) ∧
    (slot.toNat < 64 →
      ∃ b : List Byte, exec (.tableRead p slot) s = .next { s with links := s.linksAnswering p ⟨.ok, b⟩ } ∧
        b.length = 18 ∧ byteAt b 0 = slot.toNat ∧
        match entryAt s.table slot.toNat with
        | .free => ∀ i, 1 ≤ i → byteAt b i = 0
        | .staged f m =>
          byteAt b 1 = 1 ∧ read2 b 2 = f.tag.toNat ∧ read3 b 4 = f.matchLine % 16777216 ∧ byteAt b 7 = f.length % 256 ∧
          byteAt b 8 = f.scope.toNat ∧ read2 b 9 = f.storeLine % 65536 ∧ read2 b 11 = 0 ∧
          byteAt b 13 = (match f.origin with | .loader => 1 | .port q => 2 + portIndex q) ∧
          read2 b 14 = f.contentSum.toNat ∧ byteAt b 16 = 0 ∧
          byteAt b 17 = m.length % 256
        | .live f born mark =>
          byteAt b 1 = 2 ∧ read2 b 2 = f.tag.toNat ∧ read3 b 4 = f.matchLine % 16777216 ∧ byteAt b 7 = f.length % 256 ∧
          byteAt b 8 = f.scope.toNat ∧ read2 b 9 = f.storeLine % 65536 ∧ read2 b 11 = born % 65536 ∧
          byteAt b 13 = (match f.origin with | .loader => 1 | .port q => 2 + portIndex q) ∧
          read2 b 14 = f.contentSum.toNat ∧ byteAt b 16 = (if mark then 1 else 0) ∧
          byteAt b 17 = 0
        | .retiring f born =>
          byteAt b 1 = 3 ∧ read2 b 2 = f.tag.toNat ∧ read3 b 4 = f.matchLine % 16777216 ∧ byteAt b 7 = f.length % 256 ∧
          byteAt b 8 = f.scope.toNat ∧ read2 b 9 = f.storeLine % 65536 ∧ read2 b 11 = born % 65536 ∧
          byteAt b 13 = (match f.origin with | .loader => 1 | .port q => 2 + portIndex q) ∧
          read2 b 14 = f.contentSum.toNat ∧ byteAt b 16 = 0 ∧ byteAt b 17 = 0)

/-- R179: STATUS answers a 39-byte payload with each field of the layout at its place, in both load states, and changes no state
but its link. -/
def Obligations.StatusReportsEveryField : Prop :=
  ∀ (p : Port) (s : State), s.arrived p .status [] →
    ∃ b : List Byte, exec (.status p) s = .next { s with links := s.linksAnswering p ⟨.ok, b⟩ } ∧ b.length = 39 ∧
      byteAt b 0 = (match (s.streams.get p).state with | .idle => 0 | .streaming => 1 | .locked => 2 | .stale _ => 3) ∧
      read3 b 1 = (match (s.streams.get p).state with
        | .stale l => l % 16777216
        | .idle | .streaming | .locked => (s.streams.get p).counter % 16777216) ∧
      read2 b 4 = (s.gen.bindings.get p).getD 0 % 65536 ∧ read2 b 6 = s.gen.current % 65536 ∧
      read2 b 8 = s.gen.superseded.getD 0 % 65536 ∧ byteAt b 10 = (if s.loader.ready then 1 else 0) ∧
      byteAt b 11 = (match s.loader.report.result with | .complete => 0 | .partialLoad => 1 | .none => 2) ∧
      byteAt b 12 = (match s.loader.report.headerCause with
        | .pending => 0
        | .ok => 1
        | .headerFault => 2
        | .noSignature => 3
        | .badVersion => 4
        | .badHeaderSum => 5
        | .badCount => 6
        | .badPortField => 7) ∧
      byteAt b 13 = s.loader.report.placed % 256 ∧ byteAt b 14 = s.loader.report.skipped % 256 ∧
      byteAt b 15 = (match s.loader.report.firstSkip with | none => 255 | some (i, _) => i % 256) ∧
      byteAt b 16 = (match s.loader.report.firstSkip with
        | none => 0
        | some (_, .recordFault) => 1
        | some (_, .badRecordSum) => 2
        | some (_, .badField) => 3
        | some (_, .overlap) => 4
        | some (_, .noSpace) => 5
        | some (_, .contentFault) => 6
        | some (_, .contentSum) => 7) ∧
      read2 b 17 = s.loader.report.tag.toNat ∧
      byteAt b 19 = (match s.edit.session with | none => 255 | some ses => portIndex ses.owner) ∧
      byteAt b 20 = (if p ∈ s.edit.claimQueue then 1 else 0) ∧ byteAt b 21 = (s.notices.get p).queue.length % 256 ∧
      byteAt b 22 = (if (s.notices.get p).overflow then 1 else 0) ∧ read2 b 23 = s.xmc.faults % 65536 ∧
      read3 b 25 = s.xmc.lastFault % 16777216 ∧ byteAt b 28 = (s.links.get p).errors % 256 ∧
      read2 b 29 = freeTotal s.store.freeList % 65536 ∧ read2 b 31 = largestExtent s.store.freeList % 65536 ∧
      byteAt b 33 = liveCount s.table % 256 ∧ byteAt b 34 = (s.streams.get p).settings.viewBase % 256 ∧
      byteAt b 35 = (s.streams.get p).settings.viewSize % 256 ∧ byteAt b 36 = (s.streams.get p).settings.level % 256 ∧
      byteAt b 37 = (if (s.streams.get p).settings.prefetch then 1 else 0) ∧
      byteAt b 38 = (s.notices.get p).mask.toNat

/-! ### Notices -/

/-- R158: NOTICE_TAKE on an empty queue answers EMPTY and changes nothing; else the head leaves the queue and is answered with
the count that remains and the flag as it stood, and the flag is cleared exactly when the queue is then empty. Nothing
else changes. R181: the notice is a record of 9 bytes by its kind. R162, R161: a port's attention line is asserted exactly
while its overflow flag is set or a notice waits whose kind's bit is in its mask. -/
def Obligations.NoticeTakeReturnsTheHead : Prop :=
  (∀ (p : Port) (s : State), s.arrived p .noticeTake [] →
    ((s.notices.get p).queue = [] →
      exec (.noticeTake p) s = .next { s with links := s.linksAnswering p ⟨.empty, []⟩ }) ∧
    (∀ n rest, (s.notices.get p).queue = n :: rest →
      ∃ b : List Byte, b.length = 9 ∧
        exec (.noticeTake p) s = .next { s with
          notices := s.notices.set p ⟨rest, (if rest = [] then false else (s.notices.get p).overflow), (s.notices.get p).mask⟩
          links := s.linksAnswering p
            ⟨.ok, b ++ [BitVec.ofNat 8 rest.length, if (s.notices.get p).overflow then 1 else 0]⟩ } ∧
        match n with
        | .loadDone g result placed skipped =>
          byteAt b 0 = 0 ∧ read2 b 1 = g % 65536 ∧
          byteAt b 3 = (match result with | .complete => 0 | .partialLoad => 1 | .none => 2) ∧
          byteAt b 4 = placed % 256 ∧ byteAt b 5 = skipped % 256 ∧ read3 b 6 = 0
        | .committed g first last =>
          byteAt b 0 = 1 ∧ read2 b 1 = g % 65536 ∧ read3 b 3 = first % 16777216 ∧ read3 b 6 = last % 16777216
        | .streamStale g counter =>
          byteAt b 0 = 2 ∧ read2 b 1 = g % 65536 ∧ read3 b 3 = counter % 16777216 ∧ read3 b 6 = 0
        | .sessionGranted g => byteAt b 0 = 3 ∧ read2 b 1 = g % 65536 ∧ read3 b 3 = 0 ∧ read3 b 6 = 0
        | .sessionExpired g => byteAt b 0 = 4 ∧ read2 b 1 = g % 65536 ∧ read3 b 3 = 0 ∧ read3 b 6 = 0)) ∧
  ∀ (p : Port) (s : State), s.attention p = true ↔
    (s.notices.get p).overflow = true ∨
      ∃ n ∈ (s.notices.get p).queue, (s.notices.get p).mask.getLsbD
        (match n with
          | .loadDone .. => 0
          | .committed .. => 1
          | .streamStale .. => 2
          | .sessionGranted .. => 3
          | .sessionExpired .. => 4) = true

/-! ### Edit sessions -/

/-- R107, R115, R118, R120, R121, R124, R130: ADD, FILL, REMOVE, COMMIT and RELOAD from a port that does not own the session are
answered NOT_OWNER (0x32 and its check byte), and nothing else changes, the owner's idle timer included. -/
def Obligations.EditFromNonOwnerIsRefused : Prop :=
  ∀ (c : Instr) (p : Port) (k : Kind) (payload : List Byte) (s : State),
    requestOf c = some (p, k, payload) → s.arrived p k payload → s.loader.ready = true →
    k = .add ∨ k = .fill ∨ k = .remove ∨ k = .commit ∨ k = .reload →
    (∀ ses, s.edit.session = some ses → ses.owner ≠ p) →
    exec c s = .next { s with links := s.links.set p { s.links.get p with phase := .response [0x32, 0xCE] } }

/-- R110, R111, R106: a CLAIM while no session is open is refused with BAD_ARG for a wait flag above 1, and else makes the port the
owner of a new session, with an empty op list and an idle timer at 0 with the limit held, and answers OK with C. While
another port owns the session, by the first condition that holds: BAD_ARG, BUSY, ALREADY_WAITING with the port's place, or
QUEUED at the tail with its place. R115: a CLAIM by the owner is refused, with BAD_ARG or ALREADY_OWNER, and restarts its idle timer. Nothing else changes. -/
def Obligations.ClaimOpensOrQueues : Prop :=
  ∀ (p : Port) (wait : Byte) (s : State), s.arrived p .claim [wait] → s.loader.ready = true →
    (s.edit.session = none → 1 < wait.toNat →
      exec (.claim p wait) s = .next { s with links := s.linksAnswering p ⟨.badArg, []⟩ }) ∧
    (s.edit.session = none → wait.toNat ≤ 1 →
      exec (.claim p wait) s = .next { s with
        edit := { s.edit with session := some ⟨p, ⟨0, s.loader.defaults.idleLimit⟩, []⟩ }
        links := s.linksAnswering p ⟨.ok, field2 s.gen.current⟩ }) ∧
    (∀ ses, s.edit.session = some ses → ses.owner ≠ p →
      (1 < wait.toNat → exec (.claim p wait) s = .next { s with links := s.linksAnswering p ⟨.badArg, []⟩ }) ∧
      (wait = 0 → exec (.claim p wait) s = .next { s with links := s.linksAnswering p ⟨.busy, []⟩ }) ∧
      (∀ before after, wait = 1 → s.edit.claimQueue = before ++ p :: after → p ∉ before →
        exec (.claim p wait) s = .next { s with
          links := s.linksAnswering p ⟨.alreadyWaiting, [BitVec.ofNat 8 (before.length + 1)]⟩ }) ∧
      (wait = 1 → p ∉ s.edit.claimQueue →
        exec (.claim p wait) s = .next { s with
          edit := { s.edit with claimQueue := s.edit.claimQueue ++ [p] }
          links := s.linksAnswering p ⟨.queued, [BitVec.ofNat 8 (s.edit.claimQueue.length + 1)]⟩ })) ∧
    (∀ ses, s.edit.session = some ses → ses.owner = p →
      exec (.claim p wait) s = .next { s with
        edit := { s.edit with session := some { ses with idleTimer := { ses.idleTimer with elapsed := 0 } } }
        links := s.linksAnswering p ⟨if 1 < wait.toNat then .badArg else .alreadyOwner, []⟩ })

/-- R9, R20, R27, R118, R119: an ADD from the owner that passes the checks of R118 stages the entry in the lowest FREE slot with
the fields of the request, the first fitting extent's start as its store line, the owner as origin and an empty fill map;
the lines leave the free extent list; the op joins the tail; the timer restarts; OK names the slot. Nothing else changes,
no byte of the store included. -/
def Obligations.AddStagesEntry : Prop :=
  ∀ (p : Port) (tag : BitVec 16) (line : BitVec 24) (length scope : Byte) (sum : BitVec 16) (s : State) (ses : Session)
    (slot : Nat) (before after : List Extent) (x : Extent),
    s.arrived p .add (addPayload tag line length scope sum) → s.loader.ready = true →
    s.edit.session = some ses → ses.owner = p →
    1 ≤ length.toNat → length.toNat ≤ 64 → line.toNat + length.toNat ≤ 524288 → scope.toNat < 16 → scope ≠ 0 →
    ses.ops.length < 16 → overlaps s.table line.toNat length.toNat (scope.setWidth 4) = false →
    slot < s.table.length → entryAt s.table slot = .free → (∀ j, j < slot → entryAt s.table j ≠ .free) →
    s.store.freeList = before ++ x :: after → (∀ e ∈ before, e.length < length.toNat) → length.toNat ≤ x.length →
    exec (.add p tag line length scope sum) s = .next { s with
      table := s.table.set slot
        (.staged ⟨tag, line.toNat, length.toNat, scope.setWidth 4, x.start, .port p, sum⟩ [])
      store := { s.store with
        freeList := before ++ (if x.length = length.toNat then after
          else ⟨x.start + length.toNat, x.length - length.toNat⟩ :: after) }
      edit := { s.edit with session := (some ⟨p, { ses.idleTimer with elapsed := 0 }, ses.ops ++ [.add slot]⟩) }
      links := s.linksAnswering p ⟨.ok, [BitVec.ofNat 8 slot]⟩ }

/-- R118: the refusals of an ADD from the owner, by the first check that fails; each restarts the owner's idle timer and changes
nothing else. -/
def Obligations.AddRefusalsInOrder : Prop :=
  ∀ (p : Port) (tag : BitVec 16) (line : BitVec 24) (length scope : Byte) (sum : BitVec 16) (s : State) (ses : Session)
    (st : Status),
    s.arrived p .add (addPayload tag line length scope sum) → s.loader.ready = true →
    s.edit.session = some ses → ses.owner = p →
    (let bad := length = 0 ∨ 64 < length.toNat ∨ 524288 ≤ line.toNat ∨ 524288 < line.toNat + length.toNat ∨ scope = 0
        ∨ 16 ≤ scope.toNat
      let full := 16 ≤ ses.ops.length
      let meets := overlaps s.table line.toNat length.toNat (scope.setWidth 4) = true
      let taken := ∀ e ∈ s.table, e ≠ .free
      let small := ∀ x ∈ s.store.freeList, x.length < length.toNat
      bad ∧ st = .badArg ∨ ¬ bad ∧ full ∧ st = .opsFull ∨ ¬ bad ∧ ¬ full ∧ meets ∧ st = .overlap
        ∨ ¬ bad ∧ ¬ full ∧ ¬ meets ∧ taken ∧ st = .tableFull
        ∨ ¬ bad ∧ ¬ full ∧ ¬ meets ∧ ¬ taken ∧ small ∧ st = .noSpace) →
    exec (.add p tag line length scope sum) s = .next { s with
      edit := { s.edit with session := some { ses with idleTimer := { ses.idleTimer with elapsed := 0 } } }
      links := s.linksAnswering p ⟨st, []⟩ }

/-- R19: the overlap check meets exactly when a STAGED entry, or a LIVE entry with its mark clear, shares a port of the scope and a
line of the range with the candidate. -/
def Obligations.OverlapCheckMeets : Prop :=
  ∀ (t : List Entry) (m n : Nat) (scope : BitVec 4),
    overlaps t m n scope = true ↔
      ∃ e ∈ t, ∃ f, ((∃ map, e = .staged f map) ∨ ∃ born, e = .live f born false) ∧
        (∃ p, inScope f.scope p = true ∧ inScope scope p = true) ∧
        ∃ x, m ≤ x ∧ x < m + n ∧ f.matchLine ≤ x ∧ x < f.matchLine + f.length

/-- R120, R31, R7: an accepted FILL writes its 32 bytes into the entry's store line + index, first byte at offset 0, adds the
index to the fill map, restarts the timer and answers the fill count. Nothing else changes, no other store line included. -/
def Obligations.FillWritesOneStoreLine : Prop :=
  ∀ (p : Port) (slot index : Byte) (data : List Byte) (s : State) (ses : Session) (f : EntryFields) (m : List Nat),
    (Instr.fill p slot index data).wellFormed = true → s.arrived p .fill (fillPayload slot index data) →
    s.loader.ready = true → s.edit.session = some ses → ses.owner = p → slot.toNat < 64 →
    entryAt s.table slot.toNat = .staged f m → index.toNat < f.length → tableInStore s.table = true →
    ∃ t m', exec (.fill p slot index data) s = .next t ∧
      (∀ j, j ∈ m' ↔ j = index.toNat ∨ j ∈ m) ∧ (m.Pairwise (· < ·) → m'.Pairwise (· < ·)) ∧
      t = { s with
        table := s.table.set slot.toNat (.staged f m'), store := t.store
        edit := { s.edit with session := some { ses with idleTimer := { ses.idleTimer with elapsed := 0 } } }
        links := s.linksAnswering p ⟨.ok, [BitVec.ofNat 8 m'.length]⟩ } ∧
      (∀ i, i < 32 → t.store.byte (f.storeLine + index.toNat) i = data.getD i 0) ∧
      (∀ n i, i < 32 → n ≠ f.storeLine + index.toNat → t.store.byte n i = s.store.byte n i) ∧
      t.store.freeList = s.store.freeList

/-- R35: the content sum of a run of store lines is the sum modulo 65536 of the 16 halfwords of each of its lines, halfword k with
the byte at offset 2k as its low byte and the byte at offset 2k + 1 as its high byte. -/
def Obligations.ContentSumAddsHalfwords : Prop :=
  ∀ (st : Store) (first n : Nat),
    (st.contentSum first n).toNat =
      ((List.range n).map (fun i =>
        ((List.range 16).map (fun k =>
          (st.byte (first + i) (2 * k)).toNat + 256 * (st.byte (first + i) (2 * k + 1)).toNat)).sum)).sum % 65536

/-- R120 to R123: the refusals of a FILL and of a REMOVE from the owner; each restarts the idle timer, writes nothing and changes
nothing else. -/
def Obligations.SlotRefusalsInOrder : Prop :=
  ∀ (p : Port) (slot : Byte) (s : State) (ses : Session) (st : Status), s.loader.ready = true →
    s.edit.session = some ses → ses.owner = p → tableInStore s.table = true →
    (∀ (index : Byte) (data : List Byte), s.arrived p .fill (fillPayload slot index data) →
      (64 ≤ slot.toNat ∧ st = .badArg
        ∨ slot.toNat < 64 ∧ (entryAt s.table slot.toNat).isStaged = false ∧ st = .notStaged
        ∨ slot.toNat < 64 ∧ (∃ f m, entryAt s.table slot.toNat = .staged f m ∧ f.length ≤ index.toNat) ∧ st = .badArg) →
      exec (.fill p slot index data) s = .next { s with
        edit := { s.edit with session := some { ses with idleTimer := { ses.idleTimer with elapsed := 0 } } }
        links := s.linksAnswering p ⟨st, []⟩ }) ∧
    (s.arrived p .remove [slot] →
      (64 ≤ slot.toNat ∧ st = .badArg
        ∨ slot.toNat < 64 ∧ (entryAt s.table slot.toNat = .free ∨ ∃ f b, entryAt s.table slot.toNat = .retiring f b)
            ∧ st = .notLive
        ∨ slot.toNat < 64 ∧ (∃ f b, entryAt s.table slot.toNat = .live f b true) ∧ st = .alreadyStaged
        ∨ slot.toNat < 64 ∧ (∃ f b, entryAt s.table slot.toNat = .live f b false) ∧ 16 ≤ ses.ops.length ∧ st = .opsFull) →
      exec (.remove p slot) s = .next { s with
        edit := { s.edit with session := some { ses with idleTimer := { ses.idleTimer with elapsed := 0 } } }
        links := s.linksAnswering p ⟨st, []⟩ })

/-- R121, R29: a REMOVE of a STAGED entry makes its slot FREE, returns its extent to the free extent list and takes its ADD op
out of the op list from its place. R122: a REMOVE of an unmarked LIVE entry with room in the op list sets its mark and appends
its op. Each restarts the timer and answers OK; nothing else changes, no byte of the store included. -/
def Obligations.RemoveDiscardsOrMarks : Prop :=
  ∀ (p : Port) (slot : Byte) (s : State) (ses : Session),
    s.arrived p .remove [slot] → s.loader.ready = true → s.edit.session = some ses → ses.owner = p → slot.toNat < 64 →
    (∀ f m, entryAt s.table slot.toNat = .staged f m →
      ∃ free, free = insertExtent ⟨f.storeLine, f.length⟩ s.store.freeList ∧
        freeTotal free = freeTotal s.store.freeList + f.length ∧
        exec (.remove p slot) s = .next { s with
          table := s.table.set slot.toNat .free
          store := { s.store with freeList := free }
          edit := { s.edit with
            session := (some ⟨p, { ses.idleTimer with elapsed := 0 }, ses.ops.erase (.add slot.toNat)⟩) }
          links := s.linksAnswering p ⟨.ok, []⟩ }) ∧
    (∀ f born, entryAt s.table slot.toNat = .live f born false → ses.ops.length < 16 →
      exec (.remove p slot) s = .next { s with
        table := s.table.set slot.toNat (.live f born true)
        edit := { s.edit with
          session := (some ⟨p, { ses.idleTimer with elapsed := 0 }, ses.ops ++ [.remove slot.toNat]⟩) }
        links := s.linksAnswering p ⟨.ok, []⟩ })

/-- R125, R126: a COMMIT of a nonempty op list is refused with PRIOR_DRAINING while S exists, with INCOMPLETE by the first ADD op
whose fill map is not complete, and with SUM_MISMATCH by the first whose computed sum differs, every ADD op before it
having passed; each restarts the idle timer and changes nothing else. -/
def Obligations.CommitRefusals : Prop :=
  ∀ (p : Port) (s : State) (ses : Session), s.arrived p .commit [] → s.loader.ready = true →
    s.edit.session = some ses → ses.owner = p → tableInStore s.table = true → ses.ops ≠ [] →
    (∀ g, s.gen.superseded = some g →
      exec (.commit p) s = .next { s with
        edit := { s.edit with session := some { ses with idleTimer := { ses.idleTimer with elapsed := 0 } } }
        links := s.linksAnswering p ⟨.priorDraining, []⟩ }) ∧
    (s.gen.superseded = none →
      ∀ before slot after f m, ses.ops = before ++ .add slot :: after → entryAt s.table slot = .staged f m →
      (∀ j, Op.add j ∈ before → ∃ f' m', entryAt s.table j = .staged f' m' ∧ m'.length = f'.length ∧
        s.store.contentSum f'.storeLine f'.length = f'.contentSum) →
      (m.length ≠ f.length →
        exec (.commit p) s = .next { s with
          edit := { s.edit with session := some { ses with idleTimer := { ses.idleTimer with elapsed := 0 } } }
          links := s.linksAnswering p ⟨.incomplete, [BitVec.ofNat 8 slot, BitVec.ofNat 8 m.length]⟩ }) ∧
      (m.length = f.length → s.store.contentSum f.storeLine f.length ≠ f.contentSum →
        exec (.commit p) s = .next { s with
          edit := { s.edit with session := some { ses with idleTimer := { ses.idleTimer with elapsed := 0 } } }
          links := s.linksAnswering p
            ⟨.sumMismatch, BitVec.ofNat 8 slot :: field2 (s.store.contentSum f.storeLine f.length).toNat⟩ }))

/-- R124, R113: a COMMIT of an empty op list ends the session with the handover and answers OK with C; nothing else changes but the
notice of the port that becomes owner. R11, R12, R91 to R93, R127: a COMMIT whose ADD ops all pass makes N current; the STAGED
entries become LIVE, born in N; the marked LIVE entries become RETIRING when some port is bound to C, else FREE with their
extents returned; every entry that was LIVE and born in N takes C; S takes C and the drain timer starts exactly when some port
is bound to C; the bindings keep their numbers; the session is handed over; and the answer is OK with N. Of the rest only
notices change. -/
def Obligations.CommitAppliesTheOpList : Prop :=
  ∀ (p : Port) (s : State) (ses : Session), s.arrived p .commit [] → s.loader.ready = true →
    s.edit.session = some ses → ses.owner = p → tableInStore s.table = true →
    (ses.ops = [] →
      exec (.commit p) s = .next { s with
        edit := handedOver s.edit.claimQueue s.loader.defaults.idleLimit
        notices := PerPort.tabulate (grantedTo s.notices s.edit.claimQueue s.gen.current)
        links := s.linksAnswering p ⟨.ok, field2 s.gen.current⟩ }) ∧
    (ses.ops ≠ [] → s.gen.superseded = none →
      (∀ j, Op.add j ∈ ses.ops → ∃ f m, entryAt s.table j = .staged f m ∧ m.length = f.length ∧
        s.store.contentSum f.storeLine f.length = f.contentSum) →
      ∃ t, exec (.commit p) s = .next t ∧
        t = { s with
          table := t.table, store := { s.store with freeList := t.store.freeList }, gen := t.gen, notices := t.notices
          edit := handedOver s.edit.claimQueue s.loader.defaults.idleLimit
          links := s.linksAnswering p ⟨.ok, field2 t.gen.current⟩ } ∧
        t.gen.current = (if s.gen.current = 65535 then 1 else s.gen.current + 1) ∧
        t.gen.bindings = s.gen.bindings ∧ t.table.length = s.table.length ∧
        (∀ i f m, entryAt s.table i = .staged f m → entryAt t.table i = .live f t.gen.current false) ∧
        (∀ i f b, entryAt s.table i = .live f b false →
          entryAt t.table i = .live f (if b = t.gen.current then s.gen.current else b) false) ∧
        (∀ i, entryAt s.table i = .free → entryAt t.table i = .free) ∧
        ((∃ q, s.gen.bindings.get q = some s.gen.current) →
          t.gen.superseded = some s.gen.current ∧ t.gen.drainTimer = some ⟨0, s.loader.defaults.drainLimit⟩ ∧
          t.store = s.store ∧
          ∀ i f b, entryAt s.table i = .live f b true →
            entryAt t.table i = .retiring f (if b = t.gen.current then s.gen.current else b)) ∧
        ((∀ q, s.gen.bindings.get q ≠ some s.gen.current) →
          t.gen.superseded = none ∧ t.gen.drainTimer = s.gen.drainTimer ∧
          t.store.freeList = insertExtents (extentsWhere Entry.isMarked s.table) s.store.freeList ∧
          freeTotal t.store.freeList = freeTotal s.store.freeList + lengthsWhere Entry.isMarked s.table ∧
          ∀ i f b, entryAt s.table i = .live f b true → entryAt t.table i = .free))

/-- R95, R113, R127, R157: a committing COMMIT gives each port its COMMITTED notice, if some clipped range is left, and then the
new owner its SESSION_GRANTED with N; a port that gets neither keeps its notice unit. -/
def Obligations.CommitNotifiesPorts : Prop :=
  ∀ (p q : Port) (s : State) (ses : Session), s.arrived p .commit [] → s.loader.ready = true →
    s.edit.session = some ses → ses.owner = p → tableInStore s.table = true → ses.ops ≠ [] → s.gen.superseded = none →
    checkOps s.table s.store ses.ops = none →
    ∃ t, exec (.commit p) s = .next t ∧
      ∃ u : NoticeUnit,
        ((changedRanges s.table q (s.streams.get q).settings = [] ∧ u = s.notices.get q) ∨
          (∃ first last,
            first ∈ (changedRanges s.table q (s.streams.get q).settings).map Prod.fst ∧
            last ∈ (changedRanges s.table q (s.streams.get q).settings).map Prod.snd ∧
            (∀ r ∈ changedRanges s.table q (s.streams.get q).settings, first ≤ r.1 ∧ r.2 ≤ last) ∧
            u = (s.notices.get q).given (.committed t.gen.current first last))) ∧
        t.notices.get q =
          (if s.edit.claimQueue.head? = some q then u.given (.sessionGranted t.gen.current) else u)

/-- R128, R112, R113: an ABORT from the owner makes its STAGED entries FREE with their extents returned to the free extent list,
clears every mark, hands the session over and answers OK. R129: an ABORT from a queued port takes it out of the claim queue from
its place, the others keeping their order, and answers OK; from a port that is neither it is answered NOT_OWNER. Nothing else
changes, no byte of the store included. -/
def Obligations.AbortReleasesOrLeaves : Prop :=
  ∀ (p : Port) (s : State), s.arrived p .abort [] → s.loader.ready = true →
    (∀ ses, s.edit.session = some ses → ses.owner = p →
      ∃ free, free = insertExtents (extentsWhere Entry.isStaged s.table) s.store.freeList ∧
        freeTotal free = freeTotal s.store.freeList + lengthsWhere Entry.isStaged s.table ∧
        exec (.abort p) s = .next { s with
          table := s.table.map Entry.released
          store := { s.store with freeList := free }
          edit := handedOver s.edit.claimQueue s.loader.defaults.idleLimit
          notices := PerPort.tabulate (grantedTo s.notices s.edit.claimQueue s.gen.current)
          links := s.linksAnswering p ⟨.ok, []⟩ }) ∧
    ((∀ ses, s.edit.session = some ses → ses.owner ≠ p) →
      (∀ before after, s.edit.claimQueue = before ++ p :: after → p ∉ before →
        exec (.abort p) s = .next { s with
          edit := { s.edit with claimQueue := before ++ after }
          links := s.linksAnswering p ⟨.ok, []⟩ }) ∧
      (p ∉ s.edit.claimQueue →
        exec (.abort p) s = .next { s with links := s.linksAnswering p ⟨.notOwner, []⟩ }))

/-- R151, R63, R83, R26, R104, R130, R165: an accepted RELOAD closes every stream IDLE with its settings kept, empties the table, the
notices, the session and the claim queue, makes the store one free extent and C 1 with no S and no binding, orphans a read in
flight or starts the header read at once, keeps the fault record, the masks, the limits and every link error counter, and
answers OK. (The store's content is unspecified afterwards, log entry 1: nothing is said of it. That each port keeps its
delivery role is the model's choice, log entry 10.) -/
def Obligations.ReloadStartsALoad : Prop :=
  ∀ (p : Port) (s : State) (ses : Session), s.arrived p .reload [] → s.loader.ready = true →
    s.edit.session = some ses → ses.owner = p →
    ∃ t, exec (.reload p) s = .next t ∧
      (∀ q, t.streams.get q = ⟨.idle, 0, ⟨.empty, .empty⟩, (s.streams.get q).delivery, (s.streams.get q).settings⟩) ∧
      t.table = List.replicate 64 .free ∧ t.store.freeList = [⟨0, 2048⟩] ∧
      t.gen = ⟨1, none, ⟨none, none, none, none⟩, none⟩ ∧ t.edit = ⟨none, []⟩ ∧
      (∀ q, t.notices.get q = ⟨[], false, (s.notices.get q).mask⟩) ∧
      t.loader.ready = false ∧ t.loader.report = ⟨.none, .pending, 0, 0, none, 0⟩ ∧ t.loader.step = .header ∧
      t.loader.defaults = s.loader.defaults ∧ t.loader.dirsel = s.loader.dirsel ∧
      (∀ q k, t.xmc.slotRequest q k = none) ∧
      (∀ r, s.xmc.inFlight = some r → t.xmc.inFlight = some { r with orphan := true } ∧
        t.xmc.loaderRequest = some ⟨headerLine s.loader.dirsel, 0, 0⟩) ∧
      (s.xmc.inFlight = none → t.xmc.inFlight = some ⟨.loader, headerLine s.loader.dirsel, [], false⟩ ∧
        t.xmc.loaderRequest = none) ∧
      t.xmc.faults = s.xmc.faults ∧ t.xmc.lastFault = s.xmc.lastFault ∧ t.xmc.pointer = s.xmc.pointer ∧
      t.links = s.linksAnswering p ⟨.ok, []⟩ ∧ t.inReset = s.inReset

/-! ### Resets -/

/-- R182 with R62, R84, R89, R131, R164, R170: PORT_RESET of a port, in either load state, leaves it IDLE and unbound with both slots
EMPTY and nothing outstanding, a read in flight for either slot being orphaned (R76), out of the session and the claim queue, with the default settings and mask, an empty notice
queue, a clear flag and error counter 0. R99: when it was the last port bound to S, S is absent, the timer stopped and every
RETIRING entry FREE with its extent returned; else S, the timer and those entries stay. R112, R113: when it owned the session,
the STAGED entries are FREE with their extents returned, the marks clear and the session handed over; else the session, the
entries and the other ports' notices stay. Nothing else changes: not the other ports' streams, bindings, links and requests, the
loader's request, a read in flight for another requester, C, the fault record, the loader, or a byte of the store. (That the port keeps its delivery role is the model's choice, log
entry 10.) -/
def Obligations.PortResetReturnsOnePort : Prop :=
  ∀ (p : Port) (s : State), s.arrived p .portReset [] → s.claimsSound →
    ∃ t u table free, exec (.portReset p) s = .next t ∧
      u = ⟨.idle, 0, ⟨.empty, .empty⟩, (s.streams.get p).delivery, (s.loader.defaults.ports.get p).settings⟩ ∧
      t = { s with
        streams := s.streams.set p u, xmc := t.xmc, table := t.table
        store := { s.store with freeList := t.store.freeList }
        gen := t.gen, edit := t.edit, notices := t.notices
        links := s.links.set p { s.links.get p with phase := .response [0x00, 0x00], errors := 0 } } ∧
      (∀ k, t.xmc.slotRequest p k = none ∧ ∀ l, ¬ t.xmc.servesSlot p k l) ∧
      t.notices.get p = ⟨[], false, (s.loader.defaults.ports.get p).mask⟩ ∧
      (∀ q, q ≠ p → ∀ k, t.xmc.slotRequest q k = s.xmc.slotRequest q k) ∧
      t.xmc.loaderRequest = s.xmc.loaderRequest ∧
      t.xmc.inFlight = s.xmc.inFlight.map (fun r =>
        if r.requester = .slot p .a ∨ r.requester = .slot p .b then { r with orphan := true } else r) ∧
      t.xmc.faults = s.xmc.faults ∧ t.xmc.lastFault = s.xmc.lastFault ∧ t.xmc.pointer = s.xmc.pointer ∧
      (s.lastOnSuperseded p →
        t.gen = ⟨s.gen.current, none, s.gen.bindings.set p none, none⟩ ∧ table = s.table.map Entry.afterDrain ∧
        free = insertExtents (extentsWhere Entry.isRetiring s.table) s.store.freeList ∧
        freeTotal free = freeTotal s.store.freeList + lengthsWhere Entry.isRetiring s.table) ∧
      (¬ s.lastOnSuperseded p →
        t.gen = { s.gen with bindings := s.gen.bindings.set p none } ∧ table = s.table ∧ free = s.store.freeList) ∧
      (∀ ses, s.edit.session = some ses → ses.owner = p →
        t.edit = handedOver s.edit.claimQueue s.loader.defaults.idleLimit ∧
        t.table = table.map Entry.released ∧
        t.store.freeList = insertExtents (extentsWhere Entry.isStaged s.table) free ∧
        freeTotal t.store.freeList = freeTotal free + lengthsWhere Entry.isStaged s.table ∧
        ∀ q, q ≠ p → t.notices.get q = grantedTo s.notices s.edit.claimQueue s.gen.current q) ∧
      ((∀ ses, s.edit.session = some ses → ses.owner ≠ p) →
        t.edit = { s.edit with claimQueue := s.edit.claimQueue.erase p } ∧ t.table = table ∧ t.store.freeList = free ∧
        ∀ q, q ≠ p → t.notices.get q = s.notices.get q) ∧
      (∀ ses, t.edit.session = some ses → ses.owner ≠ p) ∧ p ∉ t.edit.claimQueue

/-- R153, R154, R162: DEVICE_RESET, from any state, brings every block to the values of the table of R153 and deasserts the
attention lines. (That the select pins and the sampled straps stand is the model's choice, log entry 20.) R188, R134, R67:
RESET_END ends the device reset, holds the sampled straps, and the header read of the location they choose is in flight; nothing
else changes. -/
def Obligations.DeviceResetAndItsEnd : Prop :=
  (∀ s : State, ∃ t, exec .deviceReset s = .next t ∧
    (∀ q, t.streams.get q = ⟨.idle, 0, ⟨.empty, .empty⟩, (t.streams.get q).delivery, ⟨0, 256, 1, true⟩⟩) ∧
    (∀ q k, t.xmc.slotRequest q k = none) ∧ t.xmc.loaderRequest = none ∧ t.xmc.inFlight = none ∧
    t.xmc.pointer = .hl3 ∧ t.xmc.faults = 0 ∧ t.xmc.lastFault = 0 ∧
    t.table = List.replicate 64 .free ∧ t.store.freeList = [⟨0, 2048⟩] ∧
    t.gen = ⟨1, none, ⟨none, none, none, none⟩, none⟩ ∧ t.edit = ⟨none, []⟩ ∧
    (∀ q, t.notices.get q = ⟨[], false, 0x1F⟩) ∧ (∀ q, t.attention q = false) ∧
    (∀ q, (t.links.get q).phase = .idle ∧ (t.links.get q).errors = 0 ∧
      (t.links.get q).selected = (s.links.get q).selected) ∧
    t.loader.ready = false ∧ t.loader.report = ⟨.none, .pending, 0, 0, none, 0⟩ ∧
    (∀ q, t.loader.defaults.ports.get q = ⟨⟨0, 256, 1, true⟩, 0x1F⟩) ∧
    t.loader.defaults.drainLimit = 5 ∧ t.loader.defaults.idleLimit = 20 ∧ t.loader.dirsel = s.loader.dirsel ∧
    t.inReset = true) ∧
  ∀ (straps : BitVec 2) (s : State), s.inReset = true → s.xmc = Xmc.reset →
    ∃ line, exec (.resetEnd straps) s = .next { s with
        inReset := false
        loader := { s.loader with dirsel := straps, step := .header }
        xmc := { s.xmc with inFlight := (some ⟨.loader, line, [], false⟩) } } ∧
      line * 32 = straps.toNat * 0x400000 + 0x3FF000

/-! ### Time -/

/-- R98, R115: a tick advances the elapsed count of a running drain timer and of a running session idle timer that have not reached
their limits, and changes nothing else. (At its limit a timer waits for its expiry: the model's choice, log entry 6; not
stated here.) -/
def Obligations.TickAdvancesRunningTimers : Prop :=
  ∀ s : State,
    (∀ d, s.gen.drainTimer = some d → d.elapsed < d.limit * 10) →
    (∀ ses, s.edit.session = some ses → ses.idleTimer.elapsed < ses.idleTimer.limit * 10) →
    exec .timebaseTick s = .next { s with
      gen := { s.gen with drainTimer := s.gen.drainTimer.map (fun d => ⟨d.elapsed + 1, d.limit⟩) }
      edit := { s.edit with session := s.edit.session.map (fun ses =>
        { ses with idleTimer := ⟨ses.idleTimer.elapsed + 1, ses.idleTimer.limit⟩ }) } }

/-- R100, R57, R99: the drain expiry closes every stream bound to S as STALE with its counter as close line and both slots EMPTY,
unbinds it and gives its port STREAM_STALE with S and that line; then S is absent, the timer stopped and every RETIRING entry
FREE with its extent returned to the free extent list. R84, R76: the requests of the closed ports leave the set and a read in
flight for one of their slots is orphaned. Ports not bound to S, the other requests and any other read in flight, the session, the
loader, the links, C and every store byte stay. (That a closed stream keeps its delivery role is the model's choice, log entry 10.) -/
def Obligations.DrainExpiryClosesStreams : Prop :=
  ∀ (s : State) (g : Nat) (d : Timer), s.gen.superseded = some g → s.gen.drainTimer = some d → d.limit * 10 ≤ d.elapsed →
    ∃ t, exec .drainExpiry s = .next t ∧
      t = { s with
        streams := t.streams, xmc := t.xmc, table := s.table.map Entry.afterDrain
        store := { s.store with freeList := t.store.freeList }
        gen := ⟨s.gen.current, none, t.gen.bindings, none⟩, notices := t.notices } ∧
      t.store.freeList = insertExtents (extentsWhere Entry.isRetiring s.table) s.store.freeList ∧
      freeTotal t.store.freeList = freeTotal s.store.freeList + lengthsWhere Entry.isRetiring s.table ∧
      (∀ p, s.gen.bindings.get p = some g →
        t.streams.get p = ⟨.stale (s.streams.get p).counter, 0, ⟨.empty, .empty⟩, (s.streams.get p).delivery,
          (s.streams.get p).settings⟩ ∧
        t.gen.bindings.get p = none ∧
        t.notices.get p = (s.notices.get p).given (.streamStale g (s.streams.get p).counter) ∧
        ∀ k, t.xmc.slotRequest p k = none ∧ ∀ l, ¬ t.xmc.servesSlot p k l) ∧
      (∀ p, s.gen.bindings.get p ≠ some g →
        t.streams.get p = s.streams.get p ∧ t.gen.bindings.get p = s.gen.bindings.get p ∧
        t.notices.get p = s.notices.get p ∧ ∀ k, t.xmc.slotRequest p k = s.xmc.slotRequest p k) ∧
      t.xmc.loaderRequest = s.xmc.loaderRequest ∧
      t.xmc.inFlight = s.xmc.inFlight.map (fun r =>
        match r.requester with
        | .slot p _ => if s.gen.bindings.get p = some g then { r with orphan := true } else r
        | .loader => r) ∧
      t.xmc.faults = s.xmc.faults ∧ t.xmc.lastFault = s.xmc.lastFault ∧ t.xmc.pointer = s.xmc.pointer

/-- R116, R112, R113: the session expiry gives the owner SESSION_EXPIRED with C, frees the STAGED entries with their
extents returned to the free extent list, clears the marks and hands the session over; nothing else changes, no byte of the store included. -/
def Obligations.SessionExpiryHandsOver : Prop :=
  ∀ (s : State) (ses : Session), s.edit.session = some ses → ses.idleTimer.limit * 10 ≤ ses.idleTimer.elapsed →
    s.claimsSound →
    ∃ t, exec .sessionExpiry s = .next t ∧
      t = { s with
        table := s.table.map Entry.released
        store := { s.store with freeList := t.store.freeList }
        edit := handedOver s.edit.claimQueue s.loader.defaults.idleLimit
        notices := t.notices } ∧
      t.store.freeList = insertExtents (extentsWhere Entry.isStaged s.table) s.store.freeList ∧
      freeTotal t.store.freeList = freeTotal s.store.freeList + lengthsWhere Entry.isStaged s.table ∧
      t.notices.get ses.owner = (s.notices.get ses.owner).given (.sessionExpired s.gen.current) ∧
      (∀ q, q ≠ ses.owner → t.notices.get q = grantedTo s.notices s.edit.claimQueue s.gen.current q)

/-! ### Loads -/

/-- R138 checks 2 to 6 in their order, over every 32-byte header line. R141, R142, R143: the checks of a record's 16 bytes in their
order: its sum, its fields, the overlap check, and the first fit, whose start is the chosen store line; a record that passes is
held with its fields. -/
def Obligations.DirectoryChecksInOrder : Prop :=
  (∀ h : List Byte, h.length = 32 →
    let signed := h.take 4 = [0x4F, 0x57, 0x44, 0x52]
    let version := byteAt h 4 = 1
    let summed := ((List.range 16).map (fun k => byteAt h (2 * k) + 256 * byteAt h (2 * k + 1))).sum % 65536 = 0
    let counted := byteAt h 5 ≤ 64
    let ports := ∀ n, n < 4 →
      byteAt h (8 + n) + (if byteAt h (12 + n) = 0 then 256 else byteAt h (12 + n)) ≤ 256 ∧
        byteAt h (18 + n) ≤ 3 ∧ byteAt h (22 + n) ≤ 1 ∧ byteAt h (26 + n) < 32
    (¬ signed → checkHeader h = .noSignature) ∧
    (signed → ¬ version → checkHeader h = .badVersion) ∧
    (signed → version → ¬ summed → checkHeader h = .badHeaderSum) ∧
    (signed → version → summed → ¬ counted → checkHeader h = .badCount) ∧
    (signed → version → summed → counted → ¬ ports → checkHeader h = .badPortField) ∧
    (signed → version → summed → counted → ports → checkHeader h = .ok)) ∧
  ∀ (r : List Byte) (t : List Entry) (free : List Extent), r.length = 16 →
    let summed := ((List.range 8).map (fun k => byteAt r (2 * k) + 256 * byteAt r (2 * k + 1))).sum % 65536 = 0
    let matchLine := read2 r 0 + 65536 * read2 r 2
    let sourceLine := read2 r 4 + 65536 * read2 r 6
    let length := byteAt r 8
    let scope := byteAt r 9
    let valid := matchLine < 524288 ∧ sourceLine < 524288 ∧ 1 ≤ length ∧ length ≤ 64 ∧ matchLine + length ≤ 524288 ∧
      sourceLine + length ≤ 524288 ∧ scope ≠ 0 ∧ scope < 16
    let meets := overlaps t matchLine length (BitVec.ofNat 4 scope) = true
    (¬ summed → checkRecord t free r = .error .badRecordSum) ∧
    (summed → ¬ valid → checkRecord t free r = .error .badField) ∧
    (summed → valid → meets → checkRecord t free r = .error .overlap) ∧
    (summed → valid → ¬ meets → (∀ x ∈ free, x.length < length) → checkRecord t free r = .error .noSpace) ∧
    (summed → valid → ¬ meets → ∀ before x after, free = before ++ x :: after → (∀ e ∈ before, e.length < length) →
      length ≤ x.length →
      ∃ d, checkRecord t free r = .ok (d, x.start) ∧ d.matchLine = matchLine ∧ d.sourceLine = sourceLine ∧
        d.length = length ∧ d.scope.toNat = scope ∧ d.tag.toNat = read2 r 10 ∧ d.contentSum.toNat = read2 r 12)

/-- R140, R148, R147: a header that fails, by a fault of its read or by the checks of its line, ends the load with result NONE
and its cause: the built-in defaults become the port defaults record and reach every port, the state is READY, and each port is
given LOAD_DONE with C. A fault of the read is counted and recorded (R79). The controller is then idle and takes a grant if the
set is not empty (R67). Nothing else changes. (Where the record index and record count rest after the end of a load is the
model's choice, log entry 22.) -/
def Obligations.FailedHeaderEndsTheLoad : Prop :=
  ∀ (s : State) (r : Read), s.loaderReads r → s.loader.step = .header →
    ∃ d : Defaults, d.drainLimit = 5 ∧ d.idleLimit = 20 ∧ (∀ q, d.ports.get q = ⟨⟨0, 256, 1, true⟩, 0x1F⟩) ∧
      (∃ t, exec .readyLimitExceeded s = .next t ∧
        t = s.loadEnded d { s.loader.report with result := .none, headerCause := .headerFault }
          ((s.xmc.faulted r.line).grant s.roles)) ∧
      (∀ (xd : Halfword) (h : List Byte) (cause : HeaderCause), r.gives xd h → checkHeader h = cause → cause ≠ .ok →
        ∃ t, exec (.accessCompletes xd) s = .next t ∧
          t = s.loadEnded d { s.loader.report with result := .none, headerCause := cause }
            ({ s.xmc with inFlight := none }.grant s.roles))

/-- R139, R136, R141: a valid header gives the pending record its values and the report the tag; with a record count above 0 the
loader's request for the first record line takes the grant at once (R67, R81). R148, R147: with a record count of 0 the load
ends at once, COMPLETE as nothing was skipped. Nothing else changes. (Where the record index and record count rest after the end
of a load is the model's choice, log entry 22.) -/
def Obligations.ValidHeaderBeginsRecords : Prop :=
  ∀ (s : State) (r : Read) (xd : Halfword) (h : List Byte), s.loaderReads r → s.loader.step = .header → r.gives xd h →
    checkHeader h = .ok →
    ∃ t d report, exec (.accessCompletes xd) s = .next t ∧
      report = { s.loader.report with headerCause := .ok, tag := BitVec.ofNat 16 (read2 h 16) } ∧
      (0 < byteAt h 5 →
        t = { s with
          xmc := { s.xmc with
            inFlight := none, loaderRequest := some ⟨headerLine s.loader.dirsel + 1, 0, 0⟩ }.grant s.roles
          loader := { s.loader with
            report := report, pendingRecord := some d, recordIndex := 0, recordCount := byteAt h 5, step := .record } } ∧
        t.xmc.inFlight = some ⟨.loader, headerLine s.loader.dirsel + 1, [], false⟩) ∧
      (byteAt h 5 = 0 → s.loader.report.skipped = 0 →
        t = State.loadEnded { s with loader := { s.loader with recordIndex := 0, recordCount := 0 } } d
          { report with result := .complete } ({ s.xmc with inFlight := none }.grant s.roles)) ∧
      d.drainLimit = (if byteAt h 6 = 0 then 5 else byteAt h 6) ∧
      d.idleLimit = (if byteAt h 7 = 0 then 20 else byteAt h 7) ∧
      ∀ q, (d.ports.get q).settings.viewBase = byteAt h (8 + portIndex q) ∧
        (d.ports.get q).settings.viewSize =
          (if byteAt h (12 + portIndex q) = 0 then 256 else byteAt h (12 + portIndex q)) ∧
        (d.ports.get q).settings.level = byteAt h (18 + portIndex q) ∧
        (d.ports.get q).settings.prefetch = decide (byteAt h (22 + portIndex q) = 1) ∧
        (d.ports.get q).mask.toNat = byteAt h (26 + portIndex q)

/-- R141 to R144: when a record's line is read, the record's 16 bytes are checked. A record that fails is skipped with its cause
(R146): the next record's line is read, or the load ends after the last (R147, R148). A record that passes is held with its
chosen store line, and the loader's request for its first content line takes the grant at once (R67, R81). Nothing else changes.
(Where the record index and record count rest after the end of a load is the model's choice, log entry 22.) -/
def Obligations.RecordLineIsJudged : Prop :=
  ∀ (s : State) (r : Read) (xd : Halfword) (h : List Byte) (d : Defaults), s.loaderReads r → s.loader.step = .record →
    r.gives xd h → s.loader.pendingRecord = some d → s.loader.report.headerCause = .ok →
    let bytes := (h.drop (16 * (s.loader.recordIndex % 2))).take 16
    ∃ t, exec (.accessCompletes xd) s = .next t ∧
      (∀ cause, checkRecord s.table s.store.freeList bytes = .error cause →
        s.recordDone d (s.loader.report.withSkip s.loader.recordIndex cause) { s.xmc with inFlight := none } t) ∧
      (∀ record chosen, checkRecord s.table s.store.freeList bytes = .ok (record, chosen) →
        t = { s with
          xmc := { s.xmc with inFlight := none, loaderRequest := some ⟨record.sourceLine, 0, 0⟩ }.grant s.roles
          loader := { s.loader with step := .copy record chosen 0 } } ∧
        t.xmc.inFlight = some ⟨.loader, record.sourceLine, [], false⟩)

/-- R144, R32: a content line of a record is written at its store line, and before the last the loader's request for the next
takes the grant at once (R67, R81). R145, R10, R28, R37: after the last, when the sum of the chosen lines is the record's, the
lowest FREE slot becomes LIVE with the record's fields, born in generation 1, the chosen lines leave the free extent list, and
the placed count rises; else the table and the list stay and the record is skipped with CONTENT_SUM (R146). The next record's
line is then read, or the load ends (R147, R148). Nothing else changes. (The lines are taken by first fit again; that the chosen
line is the start of the first extent that fits is the premise here, kept by `loadSound`: deduced, log entry 23.) (Where the
record index and record count rest after the end of a load is the model's choice, log entry 22.) -/
def Obligations.ContentLinesAreCopiedAndDecide : Prop :=
  ∀ (s : State) (r : Read) (xd : Halfword) (h : List Byte) (record : DirRecord) (chosen i : Nat),
    s.loaderReads r → s.loader.step = .copy record chosen i → r.gives xd h → i < record.length →
    chosen + record.length ≤ 2048 →
    ∃ t, exec (.accessCompletes xd) s = .next t ∧
      (∀ j, j < 32 → t.store.byte (chosen + i) j = h.getD j 0) ∧
      (∀ n j, j < 32 → n ≠ chosen + i → t.store.byte n j = s.store.byte n j) ∧
      (i + 1 < record.length →
        t = { s with
          xmc := { s.xmc with
            inFlight := none, loaderRequest := some ⟨record.sourceLine + (i + 1), 0, 0⟩ }.grant s.roles
          store := { s.store with content := t.store.content }
          loader := { s.loader with step := .copy record chosen (i + 1) } } ∧
        t.xmc.inFlight = some ⟨.loader, record.sourceLine + (i + 1), [], false⟩) ∧
      (∀ d, i + 1 = record.length → s.loader.pendingRecord = some d → s.loader.report.headerCause = .ok →
        (∀ (before : List Extent) (x : Extent) (after : List Extent) (slot : Nat),
          t.store.contentSum chosen record.length = record.contentSum →
          s.store.freeList = before ++ x :: after → (∀ e ∈ before, e.length < record.length) →
          record.length ≤ x.length → x.start = chosen →
          slot < s.table.length → entryAt s.table slot = .free → (∀ j, j < slot → entryAt s.table j ≠ .free) →
          State.recordDone { s with
              table := s.table.set slot
                (.live ⟨record.tag, record.matchLine, record.length, record.scope, chosen, .loader, record.contentSum⟩
                  1 false)
              store := ⟨before ++ (if x.length = record.length then after
                  else ⟨x.start + record.length, x.length - record.length⟩ :: after), t.store.content, s.store.epoch⟩ }
            d { s.loader.report with placed := s.loader.report.placed + 1 } { s.xmc with inFlight := none } t) ∧
        (t.store.contentSum chosen record.length ≠ record.contentSum →
          State.recordDone { s with store := { s.store with content := t.store.content } }
            d (s.loader.report.withSkip s.loader.recordIndex .contentSum) { s.xmc with inFlight := none } t))

/-- R141, R144, R146, R79: a fault of the read of a record's line skips the record with RECORD_FAULT, and a fault of the read
of a content line skips it with CONTENT_FAULT; the fault is counted and its line recorded. The next record's line is then
read, or the load ends (R147, R148); the table and the store, its free extent list included, stay. (Where the record index
and record count rest after the end of a load is the model's choice, log entry 22.) -/
def Obligations.LoaderFaultSkipsTheRecord : Prop :=
  ∀ (s : State) (r : Read) (d : Defaults) (cause : SkipCause), s.loaderReads r →
    s.loader.step = .record ∧ cause = .recordFault
      ∨ (∃ record chosen i, s.loader.step = .copy record chosen i) ∧ cause = .contentFault →
    s.loader.pendingRecord = some d → s.loader.report.headerCause = .ok →
    ∃ t, exec .readyLimitExceeded s = .next t ∧
      s.recordDone d (s.loader.report.withSkip s.loader.recordIndex cause) (s.xmc.faulted r.line) t

/-- R29: an extent returned to an ascending list takes its place between the extents below and above it, merged with a neighbour it
touches; in all four cases of the table. -/
def Obligations.ReturnedExtentMerges : Prop :=
  ∀ (below above : List Extent) (x lo hi : Extent), 1 ≤ x.length →
    (∀ e ∈ below, e.start + e.length < x.start) → (∀ e ∈ above, x.start + x.length < e.start) →
    (∀ e ∈ below, e.start + e.length < lo.start) → (∀ e ∈ above, hi.start + hi.length < e.start) → 1 ≤ lo.length →
    insertExtent x (below ++ above) = below ++ x :: above ∧
    (lo.start + lo.length = x.start →
      insertExtent x (below ++ lo :: above) = below ++ ⟨lo.start, lo.length + x.length⟩ :: above) ∧
    (x.start + x.length = hi.start →
      insertExtent x (below ++ hi :: above) = below ++ ⟨x.start, x.length + hi.length⟩ :: above) ∧
    (lo.start + lo.length = x.start → x.start + x.length = hi.start →
      insertExtent x (below ++ lo :: hi :: above) =
        below ++ ⟨lo.start, lo.length + x.length + hi.length⟩ :: above)

/-! ### Laws every step keeps -/

/-- R156, R79, R170, R24, R67: every step keeps the notice queues within 8 with no overflow flag over an empty queue, the fault and
link error counters within their bounds, every written store byte inside the store, and a read in flight short of its sixteenth
access. (That the store's bytes are a list of rising addresses, the canonical form `Memory.wf`, is the model's own, log
entry 1.) -/
def Obligations.StepKeepsBuffersInBounds : Prop :=
  ∀ s t : State, s.noticesSound → s.countersSound → s.contentSound → step s = .next t →
    t.noticesSound ∧ t.countersSound ∧ t.contentSound

/-- R85 to R87, R90: every step keeps C and S generation numbers that differ, each binding none, C or S, S existing exactly while a
port is bound to it, the drain timer running exactly while S exists, RETIRING entries only while S exists, and every born
generation a generation number. -/
def Obligations.StepKeepsGenerations : Prop :=
  ∀ s t : State, s.generationsSound → step s = .next t → t.generationsSound

/-- R108, R109, R4: every step keeps the claim queue without repeats and without the owner, empty while no session is open, the
op list within 16, without repeats, naming exactly the STAGED and the marked LIVE slots, and the owner as the origin of every
STAGED entry. -/
def Obligations.StepKeepsTheSession : Prop :=
  ∀ s t : State, s.claimsSound → s.opsSound → step s = .next t → t.claimsSound ∧ t.opsSound

/-- R136, R138, R142, R148, R149, R153: every step keeps a load in progress undisturbed: no session, no drain, no open or bound
stream, C 1; records processed only after a valid header and within its count; the record that is copied within R2, with its
chosen extent still the first fit. R81, R136: a load outside a device reset always waits for a line, with exactly one read
outstanding for it, a request of level 0 or the read in flight, and a loader that waits for none has none. -/
def Obligations.StepKeepsLoads : Prop :=
  ∀ s t : State, s.loadSound → step s = .next t → t.loadSound

/-- R40 to R44: every step keeps each stream unit as its state says: counter, slots, port lines and binding, and every settings
record in range. -/
def Obligations.StepKeepsStreams : Prop :=
  ∀ s t : State, s.loadSound → s.streamsSound → step s = .next t → t.streamsSound

/-- R42, R46, R65: every step keeps one outstanding read for each WAITING slot, for its line and level, and none for another slot.
R67: a grant is taken whenever the controller is idle and the set is not empty, so after every step an idle controller has an
empty set. -/
def Obligations.StepKeepsOutstandingReads : Prop :=
  ∀ s t : State, s.loadSound → s.streamsSound → s.outstandingSound → step s = .next t → t.outstandingSound

/-- R24, R25, R2: every step keeps the free extent list in order, every store line in exactly one extent, of the list or of an
entry, and every entry within the four conditions of R2. -/
def Obligations.StepKeepsStoreOwnership : Prop :=
  ∀ s t : State, s.loadSound → s.storeSound → step s = .next t → t.storeSound

/-- R17, R19: every step keeps the ranges visible to a port under each existing generation disjoint, and those the overlap check
counts. -/
def Obligations.StepKeepsRangesDisjoint : Prop :=
  ∀ s t : State, s.generationsSound → s.opsSound → s.loadSound → s.rangesSound → step s = .next t → t.rangesSound

/-- R18: across every step, a port bound to one generation before and after it gets the same answer to every lookup. R33: every
step but DEVICE_RESET and an accepted RELOAD keeps each byte of the store lines of a LIVE or RETIRING entry. -/
def Obligations.StepKeepsBoundViews : Prop :=
  ∀ (s t : State) (c : Instr) (rest : List Instr), s.generationsSound → s.loadSound → s.storeSound → s.contentSound →
    s.pending = c :: rest → step s = .next t →
    (∀ p g x, s.gen.bindings.get p = some g → t.gen.bindings.get p = some g →
      lookup t.table t.gen.current t.gen.superseded g p x = lookup s.table s.gen.current s.gen.superseded g p x) ∧
    (c ≠ .deviceReset →
      (∀ p ses, c = .reload p → s.arrived p .reload [] → s.loader.ready = true → s.edit.session = some ses →
        ses.owner ≠ p) →
      ∀ slot f, (∃ born mark, entryAt s.table slot = .live f born mark) ∨
          (∃ born, entryAt s.table slot = .retiring f born) →
        ∀ n i, f.storeLine ≤ n → n < f.storeLine + f.length → i < 32 → t.store.byte n i = s.store.byte n i)

/-- The state after reset satisfies every law above (R153; the fields whose reset value is the model's choice play no part in
it). -/
def Obligations.ResetStateIsSound : Prop :=
  State.reset.noticesSound ∧ State.reset.countersSound ∧ State.reset.generationsSound ∧ State.reset.claimsSound ∧
  State.reset.opsSound ∧ State.reset.loadSound ∧ State.reset.streamsSound ∧ State.reset.outstandingSound ∧
  State.reset.storeSound ∧ State.reset.contentSound ∧ State.reset.rangesSound
end

