-- ==== Sys2Proof/Laws/State.lean ====
section
/-! SUPPORT. The named updates of State, once: what each sets and what each leaves (true by rfl), and the per-port and
per-slot values. Later proofs cite these and unfold no record update. -/

namespace Sys2Proof.Machine

variable (s : State)

@[simp] theorem State.putStreams_streams (x : PerPort StreamUnit) : (s.putStreams x).streams = x := rfl
@[simp] theorem State.putStreams_xmc (x : PerPort StreamUnit) : (s.putStreams x).xmc = s.xmc := rfl
@[simp] theorem State.putStreams_table (x : PerPort StreamUnit) : (s.putStreams x).table = s.table := rfl
@[simp] theorem State.putStreams_store (x : PerPort StreamUnit) : (s.putStreams x).store = s.store := rfl
@[simp] theorem State.putStreams_gen (x : PerPort StreamUnit) : (s.putStreams x).gen = s.gen := rfl
@[simp] theorem State.putStreams_edit (x : PerPort StreamUnit) : (s.putStreams x).edit = s.edit := rfl
@[simp] theorem State.putStreams_loader (x : PerPort StreamUnit) : (s.putStreams x).loader = s.loader := rfl
@[simp] theorem State.putStreams_notices (x : PerPort StreamUnit) : (s.putStreams x).notices = s.notices := rfl
@[simp] theorem State.putStreams_links (x : PerPort StreamUnit) : (s.putStreams x).links = s.links := rfl
@[simp] theorem State.putStreams_inReset (x : PerPort StreamUnit) : (s.putStreams x).inReset = s.inReset := rfl
@[simp] theorem State.putStreams_pending (x : PerPort StreamUnit) : (s.putStreams x).pending = s.pending := rfl

@[simp] theorem State.putXmc_xmc (x : Xmc) : (s.putXmc x).xmc = x := rfl
@[simp] theorem State.putXmc_streams (x : Xmc) : (s.putXmc x).streams = s.streams := rfl
@[simp] theorem State.putXmc_table (x : Xmc) : (s.putXmc x).table = s.table := rfl
@[simp] theorem State.putXmc_store (x : Xmc) : (s.putXmc x).store = s.store := rfl
@[simp] theorem State.putXmc_gen (x : Xmc) : (s.putXmc x).gen = s.gen := rfl
@[simp] theorem State.putXmc_edit (x : Xmc) : (s.putXmc x).edit = s.edit := rfl
@[simp] theorem State.putXmc_loader (x : Xmc) : (s.putXmc x).loader = s.loader := rfl
@[simp] theorem State.putXmc_notices (x : Xmc) : (s.putXmc x).notices = s.notices := rfl
@[simp] theorem State.putXmc_links (x : Xmc) : (s.putXmc x).links = s.links := rfl
@[simp] theorem State.putXmc_inReset (x : Xmc) : (s.putXmc x).inReset = s.inReset := rfl
@[simp] theorem State.putXmc_pending (x : Xmc) : (s.putXmc x).pending = s.pending := rfl

@[simp] theorem State.putTable_table (x : List Entry) : (s.putTable x).table = x := rfl
@[simp] theorem State.putTable_streams (x : List Entry) : (s.putTable x).streams = s.streams := rfl
@[simp] theorem State.putTable_xmc (x : List Entry) : (s.putTable x).xmc = s.xmc := rfl
@[simp] theorem State.putTable_store (x : List Entry) : (s.putTable x).store = s.store := rfl
@[simp] theorem State.putTable_gen (x : List Entry) : (s.putTable x).gen = s.gen := rfl
@[simp] theorem State.putTable_edit (x : List Entry) : (s.putTable x).edit = s.edit := rfl
@[simp] theorem State.putTable_loader (x : List Entry) : (s.putTable x).loader = s.loader := rfl
@[simp] theorem State.putTable_notices (x : List Entry) : (s.putTable x).notices = s.notices := rfl
@[simp] theorem State.putTable_links (x : List Entry) : (s.putTable x).links = s.links := rfl
@[simp] theorem State.putTable_inReset (x : List Entry) : (s.putTable x).inReset = s.inReset := rfl
@[simp] theorem State.putTable_pending (x : List Entry) : (s.putTable x).pending = s.pending := rfl

@[simp] theorem State.putStore_store (x : Store) : (s.putStore x).store = x := rfl
@[simp] theorem State.putStore_streams (x : Store) : (s.putStore x).streams = s.streams := rfl
@[simp] theorem State.putStore_xmc (x : Store) : (s.putStore x).xmc = s.xmc := rfl
@[simp] theorem State.putStore_table (x : Store) : (s.putStore x).table = s.table := rfl
@[simp] theorem State.putStore_gen (x : Store) : (s.putStore x).gen = s.gen := rfl
@[simp] theorem State.putStore_edit (x : Store) : (s.putStore x).edit = s.edit := rfl
@[simp] theorem State.putStore_loader (x : Store) : (s.putStore x).loader = s.loader := rfl
@[simp] theorem State.putStore_notices (x : Store) : (s.putStore x).notices = s.notices := rfl
@[simp] theorem State.putStore_links (x : Store) : (s.putStore x).links = s.links := rfl
@[simp] theorem State.putStore_inReset (x : Store) : (s.putStore x).inReset = s.inReset := rfl
@[simp] theorem State.putStore_pending (x : Store) : (s.putStore x).pending = s.pending := rfl

@[simp] theorem State.putGen_gen (x : GenControl) : (s.putGen x).gen = x := rfl
@[simp] theorem State.putGen_streams (x : GenControl) : (s.putGen x).streams = s.streams := rfl
@[simp] theorem State.putGen_xmc (x : GenControl) : (s.putGen x).xmc = s.xmc := rfl
@[simp] theorem State.putGen_table (x : GenControl) : (s.putGen x).table = s.table := rfl
@[simp] theorem State.putGen_store (x : GenControl) : (s.putGen x).store = s.store := rfl
@[simp] theorem State.putGen_edit (x : GenControl) : (s.putGen x).edit = s.edit := rfl
@[simp] theorem State.putGen_loader (x : GenControl) : (s.putGen x).loader = s.loader := rfl
@[simp] theorem State.putGen_notices (x : GenControl) : (s.putGen x).notices = s.notices := rfl
@[simp] theorem State.putGen_links (x : GenControl) : (s.putGen x).links = s.links := rfl
@[simp] theorem State.putGen_inReset (x : GenControl) : (s.putGen x).inReset = s.inReset := rfl
@[simp] theorem State.putGen_pending (x : GenControl) : (s.putGen x).pending = s.pending := rfl

@[simp] theorem State.putEdit_edit (x : EditControl) : (s.putEdit x).edit = x := rfl
@[simp] theorem State.putEdit_streams (x : EditControl) : (s.putEdit x).streams = s.streams := rfl
@[simp] theorem State.putEdit_xmc (x : EditControl) : (s.putEdit x).xmc = s.xmc := rfl
@[simp] theorem State.putEdit_table (x : EditControl) : (s.putEdit x).table = s.table := rfl
@[simp] theorem State.putEdit_store (x : EditControl) : (s.putEdit x).store = s.store := rfl
@[simp] theorem State.putEdit_gen (x : EditControl) : (s.putEdit x).gen = s.gen := rfl
@[simp] theorem State.putEdit_loader (x : EditControl) : (s.putEdit x).loader = s.loader := rfl
@[simp] theorem State.putEdit_notices (x : EditControl) : (s.putEdit x).notices = s.notices := rfl
@[simp] theorem State.putEdit_links (x : EditControl) : (s.putEdit x).links = s.links := rfl
@[simp] theorem State.putEdit_inReset (x : EditControl) : (s.putEdit x).inReset = s.inReset := rfl
@[simp] theorem State.putEdit_pending (x : EditControl) : (s.putEdit x).pending = s.pending := rfl

@[simp] theorem State.putLoader_loader (x : Loader) : (s.putLoader x).loader = x := rfl
@[simp] theorem State.putLoader_streams (x : Loader) : (s.putLoader x).streams = s.streams := rfl
@[simp] theorem State.putLoader_xmc (x : Loader) : (s.putLoader x).xmc = s.xmc := rfl
@[simp] theorem State.putLoader_table (x : Loader) : (s.putLoader x).table = s.table := rfl
@[simp] theorem State.putLoader_store (x : Loader) : (s.putLoader x).store = s.store := rfl
@[simp] theorem State.putLoader_gen (x : Loader) : (s.putLoader x).gen = s.gen := rfl
@[simp] theorem State.putLoader_edit (x : Loader) : (s.putLoader x).edit = s.edit := rfl
@[simp] theorem State.putLoader_notices (x : Loader) : (s.putLoader x).notices = s.notices := rfl
@[simp] theorem State.putLoader_links (x : Loader) : (s.putLoader x).links = s.links := rfl
@[simp] theorem State.putLoader_inReset (x : Loader) : (s.putLoader x).inReset = s.inReset := rfl
@[simp] theorem State.putLoader_pending (x : Loader) : (s.putLoader x).pending = s.pending := rfl

@[simp] theorem State.putNotices_notices (x : PerPort NoticeUnit) : (s.putNotices x).notices = x := rfl
@[simp] theorem State.putNotices_streams (x : PerPort NoticeUnit) : (s.putNotices x).streams = s.streams := rfl
@[simp] theorem State.putNotices_xmc (x : PerPort NoticeUnit) : (s.putNotices x).xmc = s.xmc := rfl
@[simp] theorem State.putNotices_table (x : PerPort NoticeUnit) : (s.putNotices x).table = s.table := rfl
@[simp] theorem State.putNotices_store (x : PerPort NoticeUnit) : (s.putNotices x).store = s.store := rfl
@[simp] theorem State.putNotices_gen (x : PerPort NoticeUnit) : (s.putNotices x).gen = s.gen := rfl
@[simp] theorem State.putNotices_edit (x : PerPort NoticeUnit) : (s.putNotices x).edit = s.edit := rfl
@[simp] theorem State.putNotices_loader (x : PerPort NoticeUnit) : (s.putNotices x).loader = s.loader := rfl
@[simp] theorem State.putNotices_links (x : PerPort NoticeUnit) : (s.putNotices x).links = s.links := rfl
@[simp] theorem State.putNotices_inReset (x : PerPort NoticeUnit) : (s.putNotices x).inReset = s.inReset := rfl
@[simp] theorem State.putNotices_pending (x : PerPort NoticeUnit) : (s.putNotices x).pending = s.pending := rfl

@[simp] theorem State.putLinks_links (x : PerPort HostLink) : (s.putLinks x).links = x := rfl
@[simp] theorem State.putLinks_streams (x : PerPort HostLink) : (s.putLinks x).streams = s.streams := rfl
@[simp] theorem State.putLinks_xmc (x : PerPort HostLink) : (s.putLinks x).xmc = s.xmc := rfl
@[simp] theorem State.putLinks_table (x : PerPort HostLink) : (s.putLinks x).table = s.table := rfl
@[simp] theorem State.putLinks_store (x : PerPort HostLink) : (s.putLinks x).store = s.store := rfl
@[simp] theorem State.putLinks_gen (x : PerPort HostLink) : (s.putLinks x).gen = s.gen := rfl
@[simp] theorem State.putLinks_edit (x : PerPort HostLink) : (s.putLinks x).edit = s.edit := rfl
@[simp] theorem State.putLinks_loader (x : PerPort HostLink) : (s.putLinks x).loader = s.loader := rfl
@[simp] theorem State.putLinks_notices (x : PerPort HostLink) : (s.putLinks x).notices = s.notices := rfl
@[simp] theorem State.putLinks_inReset (x : PerPort HostLink) : (s.putLinks x).inReset = s.inReset := rfl
@[simp] theorem State.putLinks_pending (x : PerPort HostLink) : (s.putLinks x).pending = s.pending := rfl

@[simp] theorem State.putInReset_inReset (x : Bool) : (s.putInReset x).inReset = x := rfl
@[simp] theorem State.putInReset_streams (x : Bool) : (s.putInReset x).streams = s.streams := rfl
@[simp] theorem State.putInReset_xmc (x : Bool) : (s.putInReset x).xmc = s.xmc := rfl
@[simp] theorem State.putInReset_table (x : Bool) : (s.putInReset x).table = s.table := rfl
@[simp] theorem State.putInReset_store (x : Bool) : (s.putInReset x).store = s.store := rfl
@[simp] theorem State.putInReset_gen (x : Bool) : (s.putInReset x).gen = s.gen := rfl
@[simp] theorem State.putInReset_edit (x : Bool) : (s.putInReset x).edit = s.edit := rfl
@[simp] theorem State.putInReset_loader (x : Bool) : (s.putInReset x).loader = s.loader := rfl
@[simp] theorem State.putInReset_notices (x : Bool) : (s.putInReset x).notices = s.notices := rfl
@[simp] theorem State.putInReset_links (x : Bool) : (s.putInReset x).links = s.links := rfl
@[simp] theorem State.putInReset_pending (x : Bool) : (s.putInReset x).pending = s.pending := rfl

@[simp] theorem State.putPending_pending (x : List Instr) : (s.putPending x).pending = x := rfl
@[simp] theorem State.putPending_streams (x : List Instr) : (s.putPending x).streams = s.streams := rfl
@[simp] theorem State.putPending_xmc (x : List Instr) : (s.putPending x).xmc = s.xmc := rfl
@[simp] theorem State.putPending_table (x : List Instr) : (s.putPending x).table = s.table := rfl
@[simp] theorem State.putPending_store (x : List Instr) : (s.putPending x).store = s.store := rfl
@[simp] theorem State.putPending_gen (x : List Instr) : (s.putPending x).gen = s.gen := rfl
@[simp] theorem State.putPending_edit (x : List Instr) : (s.putPending x).edit = s.edit := rfl
@[simp] theorem State.putPending_loader (x : List Instr) : (s.putPending x).loader = s.loader := rfl
@[simp] theorem State.putPending_notices (x : List Instr) : (s.putPending x).notices = s.notices := rfl
@[simp] theorem State.putPending_links (x : List Instr) : (s.putPending x).links = s.links := rfl
@[simp] theorem State.putPending_inReset (x : List Instr) : (s.putPending x).inReset = s.inReset := rfl

@[simp] theorem State.putStream_streams (p : Port) (x : StreamUnit) : (s.putStream p x).streams = s.streams.set p x := rfl
@[simp] theorem State.putStream_xmc (p : Port) (x : StreamUnit) : (s.putStream p x).xmc = s.xmc := rfl
@[simp] theorem State.putStream_table (p : Port) (x : StreamUnit) : (s.putStream p x).table = s.table := rfl
@[simp] theorem State.putStream_store (p : Port) (x : StreamUnit) : (s.putStream p x).store = s.store := rfl
@[simp] theorem State.putStream_gen (p : Port) (x : StreamUnit) : (s.putStream p x).gen = s.gen := rfl
@[simp] theorem State.putStream_edit (p : Port) (x : StreamUnit) : (s.putStream p x).edit = s.edit := rfl
@[simp] theorem State.putStream_loader (p : Port) (x : StreamUnit) : (s.putStream p x).loader = s.loader := rfl
@[simp] theorem State.putStream_notices (p : Port) (x : StreamUnit) : (s.putStream p x).notices = s.notices := rfl
@[simp] theorem State.putStream_links (p : Port) (x : StreamUnit) : (s.putStream p x).links = s.links := rfl
@[simp] theorem State.putStream_inReset (p : Port) (x : StreamUnit) : (s.putStream p x).inReset = s.inReset := rfl
@[simp] theorem State.putStream_pending (p : Port) (x : StreamUnit) : (s.putStream p x).pending = s.pending := rfl

@[simp] theorem State.putNotice_notices (p : Port) (x : NoticeUnit) : (s.putNotice p x).notices = s.notices.set p x := rfl
@[simp] theorem State.putNotice_streams (p : Port) (x : NoticeUnit) : (s.putNotice p x).streams = s.streams := rfl
@[simp] theorem State.putNotice_xmc (p : Port) (x : NoticeUnit) : (s.putNotice p x).xmc = s.xmc := rfl
@[simp] theorem State.putNotice_table (p : Port) (x : NoticeUnit) : (s.putNotice p x).table = s.table := rfl
@[simp] theorem State.putNotice_store (p : Port) (x : NoticeUnit) : (s.putNotice p x).store = s.store := rfl
@[simp] theorem State.putNotice_gen (p : Port) (x : NoticeUnit) : (s.putNotice p x).gen = s.gen := rfl
@[simp] theorem State.putNotice_edit (p : Port) (x : NoticeUnit) : (s.putNotice p x).edit = s.edit := rfl
@[simp] theorem State.putNotice_loader (p : Port) (x : NoticeUnit) : (s.putNotice p x).loader = s.loader := rfl
@[simp] theorem State.putNotice_links (p : Port) (x : NoticeUnit) : (s.putNotice p x).links = s.links := rfl
@[simp] theorem State.putNotice_inReset (p : Port) (x : NoticeUnit) : (s.putNotice p x).inReset = s.inReset := rfl
@[simp] theorem State.putNotice_pending (p : Port) (x : NoticeUnit) : (s.putNotice p x).pending = s.pending := rfl

@[simp] theorem State.putLink_links (p : Port) (x : HostLink) : (s.putLink p x).links = s.links.set p x := rfl
@[simp] theorem State.putLink_streams (p : Port) (x : HostLink) : (s.putLink p x).streams = s.streams := rfl
@[simp] theorem State.putLink_xmc (p : Port) (x : HostLink) : (s.putLink p x).xmc = s.xmc := rfl
@[simp] theorem State.putLink_table (p : Port) (x : HostLink) : (s.putLink p x).table = s.table := rfl
@[simp] theorem State.putLink_store (p : Port) (x : HostLink) : (s.putLink p x).store = s.store := rfl
@[simp] theorem State.putLink_gen (p : Port) (x : HostLink) : (s.putLink p x).gen = s.gen := rfl
@[simp] theorem State.putLink_edit (p : Port) (x : HostLink) : (s.putLink p x).edit = s.edit := rfl
@[simp] theorem State.putLink_loader (p : Port) (x : HostLink) : (s.putLink p x).loader = s.loader := rfl
@[simp] theorem State.putLink_notices (p : Port) (x : HostLink) : (s.putLink p x).notices = s.notices := rfl
@[simp] theorem State.putLink_inReset (p : Port) (x : HostLink) : (s.putLink p x).inReset = s.inReset := rfl
@[simp] theorem State.putLink_pending (p : Port) (x : HostLink) : (s.putLink p x).pending = s.pending := rfl

/-! ### One value per port, one per slot -/

section
variable {α : Type} (v : PerPort α) (w : PerSlot α) (x y : α)

@[simp] theorem PerPort.get_set_same (p : Port) : (v.set p x).get p = x := by cases p <;> rfl

@[simp] theorem PerPort.get_set_ne {p q : Port} (h : q ≠ p) : (v.set p x).get q = v.get q := by
  cases p <;> cases q <;> first | rfl | exact absurd rfl h

theorem PerPort.get_set (p q : Port) : (v.set p x).get q = if q = p then x else v.get q := by
  by_cases h : q = p
  · subst h; simp
  · simp [h]

@[simp] theorem PerPort.set_get (p : Port) : v.set p (v.get p) = v := by cases p <;> rfl

@[simp] theorem PerPort.set_set (p : Port) : (v.set p x).set p y = v.set p y := by cases p <;> rfl

@[simp] theorem PerPort.get_tabulate (f : Port → α) (p : Port) : (PerPort.tabulate f).get p = f p := by cases p <;> rfl

theorem PerPort.ext_get {v v' : PerPort α} (h : ∀ p, v.get p = v'.get p) : v = v' := by
  cases v; cases v'
  exact PerPort.mk.injEq .. |>.mpr ⟨h .hl0, h .hl1, h .hl2, h .hl3⟩

@[simp] theorem PerSlot.get_set_same (k : SlotId) : (w.set k x).get k = x := by cases k <;> rfl

@[simp] theorem PerSlot.get_set_ne {k l : SlotId} (h : l ≠ k) : (w.set k x).get l = w.get l := by
  cases k <;> cases l <;> first | rfl | exact absurd rfl h

theorem PerSlot.get_set (k l : SlotId) : (w.set k x).get l = if l = k then x else w.get l := by
  by_cases h : l = k
  · subst h; simp
  · simp [h]

end

@[simp] theorem SlotId.other_ne (k : SlotId) : k.other ≠ k := by cases k <;> decide
@[simp] theorem SlotId.ne_other (k : SlotId) : k ≠ k.other := by cases k <;> decide
@[simp] theorem SlotId.other_other (k : SlotId) : k.other.other = k := by cases k <;> rfl

theorem mem_allPorts (p : Port) : p ∈ allPorts := by cases p <;> decide

theorem allPorts_nodup : allPorts.Nodup := by decide

theorem portIndex_inj {p q : Port} (h : portIndex p = portIndex q) : p = q := by
  cases p <;> cases q <;> first | rfl | exact absurd h (by decide)

end Sys2Proof.Machine
end

