-- ==== Sys2Proof/Laws/Frames.lean ====
section
/-! SUPPORT. What each shared operation of the machine leaves unchanged: one lemma per operation, whose parts simp uses as
rewriting rules. -/

namespace Sys2Proof.Machine

variable (s : State) (p : Port) (k : SlotId)

@[simp] theorem State.freeEntries_frame (which : Entry → Bool) :
    (s.freeEntries which).streams = s.streams ∧ (s.freeEntries which).xmc = s.xmc ∧ (s.freeEntries which).gen = s.gen
      ∧ (s.freeEntries which).edit = s.edit ∧ (s.freeEntries which).loader = s.loader
      ∧ (s.freeEntries which).notices = s.notices ∧ (s.freeEntries which).links = s.links
      ∧ (s.freeEntries which).inReset = s.inReset ∧ (s.freeEntries which).pending = s.pending := by
  simp [State.freeEntries]

@[simp] theorem State.freeSlot_frame (slot : Nat) :
    (s.freeSlot slot).streams = s.streams ∧ (s.freeSlot slot).xmc = s.xmc ∧ (s.freeSlot slot).gen = s.gen
      ∧ (s.freeSlot slot).edit = s.edit ∧ (s.freeSlot slot).loader = s.loader ∧ (s.freeSlot slot).notices = s.notices
      ∧ (s.freeSlot slot).links = s.links ∧ (s.freeSlot slot).inReset = s.inReset
      ∧ (s.freeSlot slot).pending = s.pending := by
  simp [State.freeSlot]

@[simp] theorem State.grant_frame :
    (s.grant).streams = s.streams ∧ (s.grant).table = s.table ∧ (s.grant).store = s.store ∧ (s.grant).gen = s.gen
      ∧ (s.grant).edit = s.edit ∧ (s.grant).loader = s.loader ∧ (s.grant).notices = s.notices
      ∧ (s.grant).links = s.links ∧ (s.grant).inReset = s.inReset ∧ (s.grant).pending = s.pending := by
  simp [State.grant]

@[simp] theorem State.placeSlotRequest_frame (line : Nat) :
    (s.placeSlotRequest p k line).streams = s.streams ∧ (s.placeSlotRequest p k line).table = s.table
      ∧ (s.placeSlotRequest p k line).store = s.store ∧ (s.placeSlotRequest p k line).gen = s.gen
      ∧ (s.placeSlotRequest p k line).edit = s.edit ∧ (s.placeSlotRequest p k line).loader = s.loader
      ∧ (s.placeSlotRequest p k line).notices = s.notices ∧ (s.placeSlotRequest p k line).links = s.links
      ∧ (s.placeSlotRequest p k line).inReset = s.inReset ∧ (s.placeSlotRequest p k line).pending = s.pending := by
  simp [State.placeSlotRequest]

@[simp] theorem State.placeLoaderRequest_frame (line : Nat) :
    (s.placeLoaderRequest line).streams = s.streams ∧ (s.placeLoaderRequest line).table = s.table
      ∧ (s.placeLoaderRequest line).store = s.store ∧ (s.placeLoaderRequest line).gen = s.gen
      ∧ (s.placeLoaderRequest line).edit = s.edit ∧ (s.placeLoaderRequest line).loader = s.loader
      ∧ (s.placeLoaderRequest line).notices = s.notices ∧ (s.placeLoaderRequest line).links = s.links
      ∧ (s.placeLoaderRequest line).inReset = s.inReset ∧ (s.placeLoaderRequest line).pending = s.pending := by
  simp [State.placeLoaderRequest]

@[simp] theorem State.hand_frame (n : Notice) :
    (s.hand p n).streams = s.streams ∧ (s.hand p n).xmc = s.xmc ∧ (s.hand p n).table = s.table
      ∧ (s.hand p n).store = s.store ∧ (s.hand p n).gen = s.gen ∧ (s.hand p n).edit = s.edit
      ∧ (s.hand p n).loader = s.loader ∧ (s.hand p n).links = s.links ∧ (s.hand p n).inReset = s.inReset
      ∧ (s.hand p n).pending = s.pending := by
  simp [State.hand]

@[simp] theorem State.handOpt_frame (n : Option Notice) :
    (s.hand? p n).streams = s.streams ∧ (s.hand? p n).xmc = s.xmc ∧ (s.hand? p n).table = s.table
      ∧ (s.hand? p n).store = s.store ∧ (s.hand? p n).gen = s.gen ∧ (s.hand? p n).edit = s.edit
      ∧ (s.hand? p n).loader = s.loader ∧ (s.hand? p n).links = s.links ∧ (s.hand? p n).inReset = s.inReset
      ∧ (s.hand? p n).pending = s.pending := by
  cases n <;> simp [State.hand?]

@[simp] theorem State.putSlot_frame (x : LineSlot) :
    (s.putSlot p k x).xmc = s.xmc ∧ (s.putSlot p k x).table = s.table ∧ (s.putSlot p k x).store = s.store
      ∧ (s.putSlot p k x).gen = s.gen ∧ (s.putSlot p k x).edit = s.edit ∧ (s.putSlot p k x).loader = s.loader
      ∧ (s.putSlot p k x).notices = s.notices ∧ (s.putSlot p k x).links = s.links
      ∧ (s.putSlot p k x).inReset = s.inReset ∧ (s.putSlot p k x).pending = s.pending := by
  simp [State.putSlot]

@[simp] theorem State.fillSlot_frame (line : Nat) :
    (s.fillSlot p k line).table = s.table ∧ (s.fillSlot p k line).store = s.store ∧ (s.fillSlot p k line).gen = s.gen
      ∧ (s.fillSlot p k line).edit = s.edit ∧ (s.fillSlot p k line).loader = s.loader
      ∧ (s.fillSlot p k line).notices = s.notices ∧ (s.fillSlot p k line).links = s.links
      ∧ (s.fillSlot p k line).inReset = s.inReset ∧ (s.fillSlot p k line).pending = s.pending := by
  unfold State.fillSlot; (repeat' split) <;> simp

@[simp] theorem State.fillAhead_frame :
    (s.fillAhead p).table = s.table ∧ (s.fillAhead p).store = s.store ∧ (s.fillAhead p).gen = s.gen
      ∧ (s.fillAhead p).edit = s.edit ∧ (s.fillAhead p).loader = s.loader ∧ (s.fillAhead p).notices = s.notices
      ∧ (s.fillAhead p).links = s.links ∧ (s.fillAhead p).inReset = s.inReset ∧ (s.fillAhead p).pending = s.pending := by
  unfold State.fillAhead; dsimp only; (repeat' split) <;> simp

@[simp] theorem State.abandon_frame :
    (s.abandon p k).table = s.table ∧ (s.abandon p k).store = s.store ∧ (s.abandon p k).gen = s.gen
      ∧ (s.abandon p k).edit = s.edit ∧ (s.abandon p k).loader = s.loader ∧ (s.abandon p k).notices = s.notices
      ∧ (s.abandon p k).links = s.links ∧ (s.abandon p k).inReset = s.inReset ∧ (s.abandon p k).pending = s.pending := by
  simp [State.abandon]

@[simp] theorem State.abandonBoth_frame :
    (s.abandonBoth p).table = s.table ∧ (s.abandonBoth p).store = s.store ∧ (s.abandonBoth p).gen = s.gen
      ∧ (s.abandonBoth p).edit = s.edit ∧ (s.abandonBoth p).loader = s.loader ∧ (s.abandonBoth p).notices = s.notices
      ∧ (s.abandonBoth p).links = s.links ∧ (s.abandonBoth p).inReset = s.inReset
      ∧ (s.abandonBoth p).pending = s.pending := by
  simp [State.abandonBoth]

@[simp] theorem State.drainEnd_frame :
    (s.drainEnd).streams = s.streams ∧ (s.drainEnd).xmc = s.xmc ∧ (s.drainEnd).edit = s.edit
      ∧ (s.drainEnd).loader = s.loader ∧ (s.drainEnd).notices = s.notices ∧ (s.drainEnd).links = s.links
      ∧ (s.drainEnd).inReset = s.inReset ∧ (s.drainEnd).pending = s.pending := by
  simp [State.drainEnd]

@[simp] theorem State.rebind_frame (b : Option Nat) :
    (s.rebind p b).streams = s.streams ∧ (s.rebind p b).xmc = s.xmc ∧ (s.rebind p b).edit = s.edit
      ∧ (s.rebind p b).loader = s.loader ∧ (s.rebind p b).notices = s.notices ∧ (s.rebind p b).links = s.links
      ∧ (s.rebind p b).inReset = s.inReset ∧ (s.rebind p b).pending = s.pending := by
  unfold State.rebind; dsimp only; (repeat' split) <;> simp

@[simp] theorem State.openStream_frame (line : Nat) :
    (s.openStream p line).edit = s.edit ∧ (s.openStream p line).loader = s.loader
      ∧ (s.openStream p line).notices = s.notices ∧ (s.openStream p line).links = s.links
      ∧ (s.openStream p line).inReset = s.inReset ∧ (s.openStream p line).pending = s.pending := by
  simp [State.openStream]

@[simp] theorem State.putSettings_frame (v : Settings) :
    (s.putSettings p v).xmc = s.xmc ∧ (s.putSettings p v).table = s.table ∧ (s.putSettings p v).store = s.store
      ∧ (s.putSettings p v).gen = s.gen ∧ (s.putSettings p v).edit = s.edit ∧ (s.putSettings p v).loader = s.loader
      ∧ (s.putSettings p v).notices = s.notices ∧ (s.putSettings p v).links = s.links
      ∧ (s.putSettings p v).inReset = s.inReset ∧ (s.putSettings p v).pending = s.pending := by
  simp [State.putSettings]

@[simp] theorem State.advance_frame :
    (s.advance p).table = s.table ∧ (s.advance p).store = s.store ∧ (s.advance p).gen = s.gen
      ∧ (s.advance p).edit = s.edit ∧ (s.advance p).loader = s.loader ∧ (s.advance p).notices = s.notices
      ∧ (s.advance p).links = s.links ∧ (s.advance p).inReset = s.inReset ∧ (s.advance p).pending = s.pending := by
  unfold State.advance; dsimp only; (repeat' split) <;> simp

@[simp] theorem State.closeIdle_frame :
    (s.closeIdle p).table = s.table ∧ (s.closeIdle p).store = s.store ∧ (s.closeIdle p).gen = s.gen
      ∧ (s.closeIdle p).edit = s.edit ∧ (s.closeIdle p).loader = s.loader ∧ (s.closeIdle p).notices = s.notices
      ∧ (s.closeIdle p).links = s.links ∧ (s.closeIdle p).inReset = s.inReset ∧ (s.closeIdle p).pending = s.pending := by
  simp [State.closeIdle]

@[simp] theorem State.closeStale_frame :
    (s.closeStale p).table = s.table ∧ (s.closeStale p).store = s.store ∧ (s.closeStale p).gen = s.gen
      ∧ (s.closeStale p).edit = s.edit ∧ (s.closeStale p).loader = s.loader ∧ (s.closeStale p).notices = s.notices
      ∧ (s.closeStale p).links = s.links ∧ (s.closeStale p).inReset = s.inReset ∧ (s.closeStale p).pending = s.pending := by
  simp [State.closeStale]

@[simp] theorem State.putOps_frame (ops : List Op) :
    (s.putOps ops).streams = s.streams ∧ (s.putOps ops).xmc = s.xmc ∧ (s.putOps ops).table = s.table
      ∧ (s.putOps ops).store = s.store ∧ (s.putOps ops).gen = s.gen ∧ (s.putOps ops).loader = s.loader
      ∧ (s.putOps ops).notices = s.notices ∧ (s.putOps ops).links = s.links ∧ (s.putOps ops).inReset = s.inReset
      ∧ (s.putOps ops).pending = s.pending := by
  simp [State.putOps]

@[simp] theorem State.openSession_frame :
    (s.openSession p).streams = s.streams ∧ (s.openSession p).xmc = s.xmc ∧ (s.openSession p).table = s.table
      ∧ (s.openSession p).store = s.store ∧ (s.openSession p).gen = s.gen ∧ (s.openSession p).loader = s.loader
      ∧ (s.openSession p).notices = s.notices ∧ (s.openSession p).links = s.links
      ∧ (s.openSession p).inReset = s.inReset ∧ (s.openSession p).pending = s.pending := by
  simp [State.openSession]

@[simp] theorem State.restartIdle_frame :
    (s.restartIdle p).streams = s.streams ∧ (s.restartIdle p).xmc = s.xmc ∧ (s.restartIdle p).table = s.table
      ∧ (s.restartIdle p).store = s.store ∧ (s.restartIdle p).gen = s.gen ∧ (s.restartIdle p).loader = s.loader
      ∧ (s.restartIdle p).notices = s.notices ∧ (s.restartIdle p).links = s.links
      ∧ (s.restartIdle p).inReset = s.inReset ∧ (s.restartIdle p).pending = s.pending := by
  unfold State.restartIdle; dsimp only; (repeat' split) <;> simp

@[simp] theorem State.leaveQueue_frame :
    (s.leaveQueue p).streams = s.streams ∧ (s.leaveQueue p).xmc = s.xmc ∧ (s.leaveQueue p).table = s.table
      ∧ (s.leaveQueue p).store = s.store ∧ (s.leaveQueue p).gen = s.gen ∧ (s.leaveQueue p).loader = s.loader
      ∧ (s.leaveQueue p).notices = s.notices ∧ (s.leaveQueue p).links = s.links ∧ (s.leaveQueue p).inReset = s.inReset
      ∧ (s.leaveQueue p).pending = s.pending := by
  simp [State.leaveQueue]

@[simp] theorem State.endSession_frame :
    (s.endSession).streams = s.streams ∧ (s.endSession).xmc = s.xmc ∧ (s.endSession).table = s.table
      ∧ (s.endSession).store = s.store ∧ (s.endSession).gen = s.gen ∧ (s.endSession).loader = s.loader
      ∧ (s.endSession).links = s.links ∧ (s.endSession).inReset = s.inReset ∧ (s.endSession).pending = s.pending := by
  unfold State.endSession; (repeat' split) <;> simp

@[simp] theorem State.release_frame :
    (s.release).streams = s.streams ∧ (s.release).xmc = s.xmc ∧ (s.release).gen = s.gen
      ∧ (s.release).loader = s.loader ∧ (s.release).links = s.links ∧ (s.release).inReset = s.inReset
      ∧ (s.release).pending = s.pending := by
  simp [State.release]

@[simp] theorem State.handCommitted_frame (before : List Entry) (n : Nat) :
    (s.handCommitted before n).streams = s.streams ∧ (s.handCommitted before n).xmc = s.xmc
      ∧ (s.handCommitted before n).table = s.table ∧ (s.handCommitted before n).store = s.store
      ∧ (s.handCommitted before n).gen = s.gen ∧ (s.handCommitted before n).edit = s.edit
      ∧ (s.handCommitted before n).loader = s.loader ∧ (s.handCommitted before n).links = s.links
      ∧ (s.handCommitted before n).inReset = s.inReset ∧ (s.handCommitted before n).pending = s.pending := by
  simp [State.handCommitted]

@[simp] theorem State.commitStep_frame :
    (s.commitStep).streams = s.streams ∧ (s.commitStep).xmc = s.xmc ∧ (s.commitStep).edit = s.edit
      ∧ (s.commitStep).loader = s.loader ∧ (s.commitStep).links = s.links ∧ (s.commitStep).inReset = s.inReset
      ∧ (s.commitStep).pending = s.pending := by
  unfold State.commitStep; dsimp only; (repeat' split) <;> simp

@[simp] theorem State.applyDefaults_frame (d : Defaults) :
    (s.applyDefaults d p).xmc = s.xmc ∧ (s.applyDefaults d p).table = s.table ∧ (s.applyDefaults d p).store = s.store
      ∧ (s.applyDefaults d p).gen = s.gen ∧ (s.applyDefaults d p).edit = s.edit
      ∧ (s.applyDefaults d p).loader = s.loader ∧ (s.applyDefaults d p).links = s.links
      ∧ (s.applyDefaults d p).inReset = s.inReset ∧ (s.applyDefaults d p).pending = s.pending := by
  simp [State.applyDefaults]

@[simp] theorem State.loaderRead_frame (step : LoaderStep) (line : Nat) :
    (s.loaderRead step line).streams = s.streams ∧ (s.loaderRead step line).table = s.table
      ∧ (s.loaderRead step line).store = s.store ∧ (s.loaderRead step line).gen = s.gen
      ∧ (s.loaderRead step line).edit = s.edit ∧ (s.loaderRead step line).notices = s.notices
      ∧ (s.loaderRead step line).links = s.links ∧ (s.loaderRead step line).inReset = s.inReset
      ∧ (s.loaderRead step line).pending = s.pending := by
  simp [State.loaderRead]

@[simp] theorem State.beginLoad_frame :
    (s.beginLoad).streams = s.streams ∧ (s.beginLoad).table = s.table ∧ (s.beginLoad).store = s.store
      ∧ (s.beginLoad).gen = s.gen ∧ (s.beginLoad).edit = s.edit ∧ (s.beginLoad).notices = s.notices
      ∧ (s.beginLoad).links = s.links ∧ (s.beginLoad).inReset = s.inReset ∧ (s.beginLoad).pending = s.pending := by
  simp [State.beginLoad]

@[simp] theorem State.endLoad_frame :
    (s.endLoad).xmc = s.xmc ∧ (s.endLoad).table = s.table ∧ (s.endLoad).store = s.store ∧ (s.endLoad).gen = s.gen
      ∧ (s.endLoad).edit = s.edit ∧ (s.endLoad).links = s.links ∧ (s.endLoad).inReset = s.inReset
      ∧ (s.endLoad).pending = s.pending := by
  simp [State.endLoad]

@[simp] theorem State.beginRecord_frame (i : Nat) :
    (s.beginRecord i).table = s.table ∧ (s.beginRecord i).store = s.store ∧ (s.beginRecord i).gen = s.gen
      ∧ (s.beginRecord i).edit = s.edit ∧ (s.beginRecord i).links = s.links ∧ (s.beginRecord i).inReset = s.inReset
      ∧ (s.beginRecord i).pending = s.pending := by
  unfold State.beginRecord; dsimp only; (repeat' split) <;> simp

@[simp] theorem State.skipRecord_frame (cause : SkipCause) :
    (s.skipRecord cause).table = s.table ∧ (s.skipRecord cause).store = s.store ∧ (s.skipRecord cause).gen = s.gen
      ∧ (s.skipRecord cause).edit = s.edit ∧ (s.skipRecord cause).links = s.links
      ∧ (s.skipRecord cause).inReset = s.inReset ∧ (s.skipRecord cause).pending = s.pending := by
  simp [State.skipRecord]

@[simp] theorem State.placeRecord_frame (d : DirRecord) (chosen : Nat) :
    (s.placeRecord d chosen).gen = s.gen ∧ (s.placeRecord d chosen).edit = s.edit
      ∧ (s.placeRecord d chosen).links = s.links ∧ (s.placeRecord d chosen).inReset = s.inReset
      ∧ (s.placeRecord d chosen).pending = s.pending := by
  unfold State.placeRecord; dsimp only; (repeat' split) <;> simp

@[simp] theorem State.failHeader_frame (cause : HeaderCause) :
    (s.failHeader cause).xmc = s.xmc ∧ (s.failHeader cause).table = s.table ∧ (s.failHeader cause).store = s.store
      ∧ (s.failHeader cause).gen = s.gen ∧ (s.failHeader cause).edit = s.edit ∧ (s.failHeader cause).links = s.links
      ∧ (s.failHeader cause).inReset = s.inReset ∧ (s.failHeader cause).pending = s.pending := by
  simp [State.failHeader]

@[simp] theorem State.acceptHeader_frame (h : List Byte) :
    (s.acceptHeader h).table = s.table ∧ (s.acceptHeader h).store = s.store ∧ (s.acceptHeader h).gen = s.gen
      ∧ (s.acceptHeader h).edit = s.edit ∧ (s.acceptHeader h).links = s.links ∧ (s.acceptHeader h).inReset = s.inReset
      ∧ (s.acceptHeader h).pending = s.pending := by
  simp [State.acceptHeader]

@[simp] theorem State.takeRecord_frame (line : List Byte) :
    (s.takeRecord line).table = s.table ∧ (s.takeRecord line).store = s.store ∧ (s.takeRecord line).gen = s.gen
      ∧ (s.takeRecord line).edit = s.edit ∧ (s.takeRecord line).links = s.links
      ∧ (s.takeRecord line).inReset = s.inReset ∧ (s.takeRecord line).pending = s.pending := by
  unfold State.takeRecord; (repeat' split) <;> simp

@[simp] theorem State.takeContent_frame (d : DirRecord) (chosen i : Nat) (line : List Byte) :
    (s.takeContent d chosen i line).gen = s.gen ∧ (s.takeContent d chosen i line).edit = s.edit
      ∧ (s.takeContent d chosen i line).links = s.links ∧ (s.takeContent d chosen i line).inReset = s.inReset
      ∧ (s.takeContent d chosen i line).pending = s.pending := by
  unfold State.takeContent; dsimp only; (repeat' split) <;> simp

@[simp] theorem State.loaderData_frame (line : List Byte) :
    (s.loaderData line).gen = s.gen ∧ (s.loaderData line).edit = s.edit ∧ (s.loaderData line).links = s.links
      ∧ (s.loaderData line).inReset = s.inReset ∧ (s.loaderData line).pending = s.pending := by
  unfold State.loaderData; (repeat' split) <;> simp

@[simp] theorem State.loaderFault_frame :
    (s.loaderFault).table = s.table ∧ (s.loaderFault).store = s.store ∧ (s.loaderFault).gen = s.gen
      ∧ (s.loaderFault).edit = s.edit ∧ (s.loaderFault).links = s.links ∧ (s.loaderFault).inReset = s.inReset
      ∧ (s.loaderFault).pending = s.pending := by
  unfold State.loaderFault; (repeat' split) <;> simp

@[simp] theorem State.handOver_frame (q : Requester) (result : Option (List Byte)) :
    (s.handOver q result).gen = s.gen ∧ (s.handOver q result).edit = s.edit ∧ (s.handOver q result).links = s.links
      ∧ (s.handOver q result).inReset = s.inReset ∧ (s.handOver q result).pending = s.pending := by
  unfold State.handOver; (repeat' split) <;> simp

@[simp] theorem State.endRead_frame (r : Read) (result : Option (List Byte)) :
    (s.endRead r result).gen = s.gen ∧ (s.endRead r result).edit = s.edit ∧ (s.endRead r result).links = s.links
      ∧ (s.endRead r result).inReset = s.inReset ∧ (s.endRead r result).pending = s.pending := by
  unfold State.endRead; dsimp only; (repeat' split) <;> simp

@[simp] theorem State.respond_frame (r : Response) :
    (s.respond p r).streams = s.streams ∧ (s.respond p r).xmc = s.xmc ∧ (s.respond p r).table = s.table
      ∧ (s.respond p r).store = s.store ∧ (s.respond p r).gen = s.gen ∧ (s.respond p r).edit = s.edit
      ∧ (s.respond p r).loader = s.loader ∧ (s.respond p r).notices = s.notices ∧ (s.respond p r).inReset = s.inReset
      ∧ (s.respond p r).pending = s.pending := by
  simp [State.respond]

@[simp] theorem State.stage_frame (slot : Nat) (f : EntryFields) :
    (s.stage slot f).streams = s.streams ∧ (s.stage slot f).xmc = s.xmc ∧ (s.stage slot f).gen = s.gen
      ∧ (s.stage slot f).loader = s.loader ∧ (s.stage slot f).notices = s.notices ∧ (s.stage slot f).links = s.links
      ∧ (s.stage slot f).inReset = s.inReset ∧ (s.stage slot f).pending = s.pending := by
  simp [State.stage]

@[simp] theorem State.reload_frame :
    (s.reload).links = s.links ∧ (s.reload).inReset = s.inReset ∧ (s.reload).pending = s.pending := by
  simp [State.reload]

@[simp] theorem State.resetSessionPart_frame :
    (s.resetSessionPart p).streams = s.streams ∧ (s.resetSessionPart p).xmc = s.xmc
      ∧ (s.resetSessionPart p).gen = s.gen ∧ (s.resetSessionPart p).loader = s.loader
      ∧ (s.resetSessionPart p).links = s.links ∧ (s.resetSessionPart p).inReset = s.inReset
      ∧ (s.resetSessionPart p).pending = s.pending := by
  unfold State.resetSessionPart; (repeat' split) <;> simp

@[simp] theorem State.resetStreamPart_frame :
    (s.resetStreamPart p).edit = s.edit ∧ (s.resetStreamPart p).loader = s.loader
      ∧ (s.resetStreamPart p).notices = s.notices ∧ (s.resetStreamPart p).links = s.links
      ∧ (s.resetStreamPart p).inReset = s.inReset ∧ (s.resetStreamPart p).pending = s.pending := by
  simp [State.resetStreamPart]

@[simp] theorem State.resetNoticePart_frame :
    (s.resetNoticePart p).streams = s.streams ∧ (s.resetNoticePart p).xmc = s.xmc
      ∧ (s.resetNoticePart p).table = s.table ∧ (s.resetNoticePart p).store = s.store
      ∧ (s.resetNoticePart p).gen = s.gen ∧ (s.resetNoticePart p).edit = s.edit
      ∧ (s.resetNoticePart p).loader = s.loader ∧ (s.resetNoticePart p).links = s.links
      ∧ (s.resetNoticePart p).inReset = s.inReset ∧ (s.resetNoticePart p).pending = s.pending := by
  simp [State.resetNoticePart]

@[simp] theorem State.portReset_frame :
    (s.portReset p).loader = s.loader ∧ (s.portReset p).inReset = s.inReset ∧ (s.portReset p).pending = s.pending := by
  simp [State.portReset]

@[simp] theorem State.expirePort_frame (sup : Nat) :
    (s.expirePort sup p).table = s.table ∧ (s.expirePort sup p).store = s.store ∧ (s.expirePort sup p).edit = s.edit
      ∧ (s.expirePort sup p).loader = s.loader ∧ (s.expirePort sup p).links = s.links
      ∧ (s.expirePort sup p).inReset = s.inReset ∧ (s.expirePort sup p).pending = s.pending := by
  unfold State.expirePort; dsimp only; (repeat' split) <;> simp

end Sys2Proof.Machine
end

