-- ==== Sys2Proof/Laws/Link.lean ====
section
/-! SUPPORT. The point of action, once for every request: what it answers when the request's frame has arrived and what it
can do at all. -/

namespace Sys2Proof.Machine

variable {s : State} {p : Port} {k : Kind} {payload : List Byte} {owner : State → Answer}

/-- A frame that has arrived arrived outside a device reset. -/
theorem State.arrived.not_inReset (h : s.arrived p k payload) : s.inReset = false := by
  unfold State.arrived State.frameAt at h
  by_cases hr : s.inReset = true <;> simp_all

/-- A frame that has arrived is in a link's REQUEST. -/
theorem State.arrived.phase (h : s.arrived p k payload) :
    ∃ count sum kept, (s.links.get p).phase = .request count sum kept ∧ checkFrame count sum kept = .correct k payload := by
  unfold State.arrived State.frameAt at h
  split at h
  · cases h
  · split at h
    · exact ⟨_, _, _, ‹_›, by simpa using h⟩
    · cases h

/-- A dispatched request takes its owner's answer (R149, R171, R174). -/
theorem State.pointOfAction_ok {s' : State} {r : Response} (h : s.arrived p k payload)
    (hl : s.loader.ready = true ∨ answeredInLoad k = true) (ho : owner s = .ok (s', r)) :
    s.pointOfAction p k payload owner = .next (s'.respond p r) := by
  unfold State.arrived at h
  unfold State.pointOfAction
  rw [if_pos h, if_neg (by rcases hl with hl | hl <;> simp [hl]), ho]

/-- A request refused by the load state (R174). -/
theorem State.pointOfAction_loading (h : s.arrived p k payload) (hr : s.loader.ready = false)
    (hk : answeredInLoad k = false) : s.pointOfAction p k payload owner = .next (s.respond p (bare .notReady)) := by
  unfold State.arrived at h
  simp only [State.pointOfAction, h, hr, hk, Bool.not_false, Bool.and_true, if_true]

/-- All a request can do: nothing, the refusal of the load state, or its owner's answer. -/
theorem State.pointOfAction_next {t : State} (h : s.pointOfAction p k payload owner = .next t) :
    t = s ∨ (s.arrived p k payload ∧ s.loader.ready = false ∧ answeredInLoad k = false ∧ t = s.respond p (bare .notReady)) ∨
      (s.arrived p k payload ∧ (s.loader.ready = true ∨ answeredInLoad k = true) ∧
        ∃ s' r, owner s = .ok (s', r) ∧ t = s'.respond p r) := by
  unfold State.pointOfAction at h
  split at h
  · rename_i ha
    split at h
    · rename_i hl
      simp only [Bool.and_eq_true, Bool.not_eq_true'] at hl
      exact .inr (.inl ⟨ha, hl.1, hl.2, by cases h; rfl⟩)
    · rename_i hl
      refine .inr (.inr ⟨ha, ?_, ?_⟩)
      · cases hr : s.loader.ready <;> cases hk : answeredInLoad k <;> simp_all
      · split at h
        · rename_i s' r ho
          exact ⟨s', r, ho, by cases h; rfl⟩
        · cases h
  · cases h; exact .inl rfl

/-- The two nibbles of a byte, taken as two samples, make the byte again (R187). -/
theorem byteOfSamples_nibblesOfByte (b : Byte) : byteOfSamples (nibblesOfByte b).1 (nibblesOfByte b).2 = b := by
  revert b; decide +kernel

/-- What sending does to a link in RESPONSE (R172, R187). -/
theorem HostLink.send_of_response {l : HostLink} {b : Byte} {rest : List Byte} (h : l.phase = .response (b :: rest)) :
    l.send = { l with
      phase := (if rest.isEmpty then .done else .response rest), lastSent := some (nibblesOfByte b) } := by
  simp [HostLink.send, h]

/-- A response touches the answering link only, and of it only the phase (R171). -/
theorem State.respond_links (r : Response) : (s.respond p r).links = s.linksAnswering p r := rfl

end Sys2Proof.Machine
end

