-- ==== Sys2Proof/Laws/Commands.lean ====
section
/-! SUPPORT. What every command leaves: the queue of waiting commands. -/

namespace Sys2Proof.Machine

/-- An owner leaves the queue of waiting commands. -/
def keepsQueue (owner : State → Answer) : Prop := ∀ s s' r, owner s = .ok (s', r) → s'.pending = s.pending

/-- A request leaves the queue of waiting commands if its owner does. -/
theorem State.pointOfAction_pending {s t : State} {p : Port} {k : Kind} {payload : List Byte} {owner : State → Answer}
    (ho : keepsQueue owner) (h : s.pointOfAction p k payload owner = .next t) : t.pending = s.pending := by
  rcases State.pointOfAction_next h with rfl | ⟨-, -, -, rfl⟩ | ⟨-, -, s', r, hs, rfl⟩
  · rfl
  · simp
  · simpa using ho s s' r hs

/-- Each command's effect is on everything but the queue. -/
theorem exec_pending {c : Instr} {s t : State} (h : exec c s = .next t) : t.pending = s.pending := by
  cases c with
  | seek p line =>
    refine State.pointOfAction_pending (fun s s' r h => ?_) h
    unfold seekOwner at h
    (repeat' split at h) <;> cases h <;> simp
  | next p =>
    refine State.pointOfAction_pending (fun s s' r h => ?_) h
    unfold nextOwner nextStreaming nextDelivers at h
    dsimp only at h
    (repeat' split at h) <;> cases h <;> simp
  | portSet p level prefetch mask base size =>
    refine State.pointOfAction_pending (fun s s' r h => ?_) h
    unfold portSetOwner at h
    (repeat' split at h) <;> cases h <;> simp
  | status p => exact State.pointOfAction_pending (owner := statusOwner p) (fun s s' r h => by cases h; rfl) h
  | tableRead p slot =>
    refine State.pointOfAction_pending (fun s s' r h => ?_) h
    unfold tableReadOwner at h
    split at h <;> cases h <;> rfl
  | noticeTake p =>
    refine State.pointOfAction_pending (fun s s' r h => ?_) h
    unfold noticeTakeOwner at h
    dsimp only at h
    split at h <;> cases h <;> simp
  | claim p wait =>
    refine State.pointOfAction_pending (owner := claimOwner p wait.toNat) (fun s s' r h => ?_) h
    unfold claimOwner claimBody at h
    (repeat' split at h) <;> cases h <;> simp
  | add p tag line length scope sum =>
    refine State.pointOfAction_pending (fun s s' r h => ?_) h
    unfold addOwner addBody at h
    (repeat' split at h) <;> cases h <;> simp
  | fill p slot index data =>
    refine State.pointOfAction_pending (fun s s' r h => ?_) h
    unfold fillOwner fillBody at h
    (repeat' split at h) <;> cases h <;> simp
  | remove p slot =>
    refine State.pointOfAction_pending (fun s s' r h => ?_) h
    unfold removeOwner removeBody at h
    (repeat' split at h) <;> cases h <;> simp
  | commit p =>
    refine State.pointOfAction_pending (fun s s' r h => ?_) h
    unfold commitOwner commitBody at h
    (repeat' split at h) <;> cases h <;> simp
  | abort p =>
    refine State.pointOfAction_pending (fun s s' r h => ?_) h
    unfold abortOwner at h
    (repeat' split at h) <;> cases h <;> simp
  | reload p =>
    refine State.pointOfAction_pending (fun s s' r h => ?_) h
    unfold reloadOwner at h
    (repeat' split at h) <;> cases h <;> simp
  | portReset p => exact State.pointOfAction_pending (owner := portResetOwner p) (fun s s' r h => by cases h; simp) h
  | badFrame p => change execBadFrame p s = .next t at h; unfold execBadFrame at h; split at h <;> cases h <;> simp
  | badKind p => change execBadKind p s = .next t at h; unfold execBadKind at h; split at h <;> cases h <;> simp
  | selectAsserted p => cases h; rfl
  | frameDiscarded p => change execFrameDiscarded p s = .next t at h; unfold execFrameDiscarded at h; split at h <;> cases h <;> rfl
  | responseLost p => change execResponseLost p s = .next t at h; unfold execResponseLost at h; split at h <;> cases h <;> rfl
  | deviceReset => cases h; rfl
  | resetEnd straps => change execResetEnd straps s = .next t at h; unfold execResetEnd State.resetEnd at h; split at h <;> cases h <;> simp
  | timebaseTick => cases h; rfl
  | drainExpiry => change execDrainExpiry s = .next t at h; unfold execDrainExpiry at h; split at h <;> cases h <;> simp
  | sessionExpiry => change execSessionExpiry s = .next t at h; unfold execSessionExpiry at h; split at h <;> cases h <;> simp
  | accessCompletes xd =>
    change execAccessCompletes xd s = .next t at h
    unfold execAccessCompletes at h
    dsimp only at h
    (repeat' split at h) <;> cases h <;> simp
  | readyLimitExceeded => change execReadyLimitExceeded s = .next t at h; unfold execReadyLimitExceeded at h; split at h <;> cases h <;> simp
  | byteReceived p lo hi => cases h; rfl
  | byteSent p => cases h; rfl
  | selectReleased p => cases h; rfl

/-- A step with a command in front leaves the queue's rest. -/
theorem step_pending {c : Instr} {rest : List Instr} {s t : State} (hq : s.pending = c :: rest)
    (h : step s = .next t) : t.pending = rest := by
  unfold step at h
  rw [hq] at h
  exact exec_pending h

end Sys2Proof.Machine
end

