-- ==== Sys2Proof/Laws/FreeList.lean ====
section
/-! SUPPORT. The free extent list and the table's lists: what taking and returning lines does to the free total, what first fit
and slot choice find, and what a set or a map does to the entry of a slot. -/

namespace Sys2Proof.Machine

/-! ### Free total -/

@[simp] theorem freeTotal_nil : freeTotal [] = 0 := rfl

@[simp] theorem freeTotal_cons (e : Extent) (es : List Extent) : freeTotal (e :: es) = e.length + freeTotal es := by
  simp [freeTotal]

/-- A returned extent adds its lines to the free total, merged or not (R29). -/
theorem freeTotal_insertExtent (x : Extent) (l : List Extent) :
    freeTotal (insertExtent x l) = freeTotal l + x.length := by
  induction l with
  | nil => simp [insertExtent]
  | cons e es ih =>
    unfold insertExtent
    split
    · split <;> simp <;> omega
    · split
      · cases es with
        | nil => simp
        | cons f fs => dsimp only; split <;> simp <;> omega
      · simp [ih]; omega

/-- Several returned extents add their lines (R30). -/
theorem freeTotal_insertExtents (xs l : List Extent) : freeTotal (insertExtents xs l) = freeTotal l + freeTotal xs := by
  unfold insertExtents
  induction xs generalizing l with
  | nil => simp
  | cons x xs ih => simp [ih, freeTotal_insertExtent]; omega

/-- First fit names an extent that is long enough, with none before it that is (R27). -/
theorem firstFit_some {n first : Nat} {l : List Extent} (h : firstFit n l = some first) :
    ∃ before x after, l = before ++ x :: after ∧ (∀ e ∈ before, e.length < n) ∧ n ≤ x.length ∧ x.start = first := by
  induction l with
  | nil => simp [firstFit] at h
  | cons e es ih =>
    unfold firstFit at h
    split at h
    · exact ⟨[], e, es, rfl, by simp, ‹_›, by simpa using h⟩
    · obtain ⟨before, x, after, rfl, hb, hx, hs⟩ := ih h
      exact ⟨e :: before, x, after, rfl, by simpa using ⟨by omega, hb⟩, hx, hs⟩

/-- First fit finds none exactly when no extent is long enough (R27). -/
theorem firstFit_eq_none {n : Nat} {l : List Extent} : firstFit n l = none ↔ ∀ e ∈ l, e.length < n := by
  induction l with
  | nil => simp [firstFit]
  | cons e es ih =>
    unfold firstFit
    split
    · simp; omega
    · simp [ih]; omega

/-- What first fit takes, where the list is split at the extent it takes from (R27). -/
theorem takeFirstFit_append {n : Nat} {before after : List Extent} {x : Extent} (hb : ∀ e ∈ before, e.length < n)
    (hx : n ≤ x.length) :
    takeFirstFit n (before ++ x :: after)
      = before ++ (if x.length = n then after else ⟨x.start + n, x.length - n⟩ :: after) := by
  induction before with
  | nil => simp [takeFirstFit, hx]
  | cons e es ih =>
    simp only [List.mem_cons, forall_eq_or_imp] at hb
    simp [takeFirstFit, Nat.not_le.mpr hb.1, ih hb.2]

/-- An allocation takes its lines from the free total (R27). -/
theorem freeTotal_takeFirstFit {n first : Nat} {l : List Extent} (h : firstFit n l = some first) :
    freeTotal (takeFirstFit n l) + n = freeTotal l := by
  induction l with
  | nil => simp [firstFit] at h
  | cons e es ih =>
    unfold firstFit at h
    unfold takeFirstFit
    split at h
    · rename_i he
      rw [if_pos he]
      split <;> simp <;> omega
    · rename_i he
      rw [if_neg he]
      have := ih h
      simp; omega

/-! ### Entries -/

/-- The entry of a slot after one slot was replaced. -/
theorem entryAt_set (t : List Entry) (i j : Nat) (e : Entry) :
    entryAt (t.set i e) j = if i = j ∧ i < t.length then e else entryAt t j := by
  unfold entryAt
  rw [List.getD_eq_getElem?_getD, List.getD_eq_getElem?_getD, List.getElem?_set]
  by_cases hij : i = j
  · subst hij
    by_cases hi : i < t.length <;> simp [hi]
  · simp [hij]

/-- The entry of a slot after a change of all entries that leaves a FREE entry FREE. -/
theorem entryAt_map (f : Entry → Entry) (hf : f .free = .free) (t : List Entry) (i : Nat) :
    entryAt (t.map f) i = f (entryAt t i) := by
  unfold entryAt
  rw [List.getD_eq_getElem?_getD, List.getD_eq_getElem?_getD, List.getElem?_map]
  cases t[i]? <;> simp [hf]

/-- A slot outside the table has no entry but FREE. -/
theorem entryAt_of_length_le {t : List Entry} {i : Nat} (h : t.length ≤ i) : entryAt t i = .free := by
  simp [entryAt, List.getD_eq_getElem?_getD, h]

/-- The entry of a slot of the table is one of its entries. -/
theorem entryAt_mem {t : List Entry} {i : Nat} (h : i < t.length) : entryAt t i ∈ t := by
  simp [entryAt, List.getD_eq_getElem?_getD, h]

/-- Every entry stands in a slot. -/
theorem exists_entryAt {t : List Entry} {e : Entry} (h : e ∈ t) : ∃ i, i < t.length ∧ entryAt t i = e := by
  obtain ⟨i, hi, rfl⟩ := List.getElem_of_mem h
  exact ⟨i, hi, by simp [entryAt, List.getD_eq_getElem?_getD, hi]⟩

/-- Slot choice names a FREE slot with none below it (R20). -/
theorem lowestFree_some {t : List Entry} {slot : Nat} (h : lowestFree t = some slot) :
    slot < t.length ∧ entryAt t slot = .free ∧ ∀ j, j < slot → entryAt t j ≠ .free := by
  unfold lowestFree at h
  rw [List.findIdx?_eq_some_iff_getElem] at h
  obtain ⟨hlt, hfree, hlow⟩ := h
  refine ⟨hlt, ?_, fun j hj => ?_⟩
  · have : t[slot] = .free := by revert hfree; cases t[slot] <;> simp [Entry.isFree]
    simp [entryAt, List.getD_eq_getElem?_getD, hlt, this]
  · have hj' : j < t.length := by omega
    have := hlow j hj
    intro he
    simp [entryAt, List.getD_eq_getElem?_getD, hj'] at he
    simp [he, Entry.isFree] at this

/-- Slot choice finds the lowest FREE slot (R20). -/
theorem lowestFree_eq {t : List Entry} {slot : Nat} (hlt : slot < t.length) (hfree : entryAt t slot = .free)
    (hlow : ∀ j, j < slot → entryAt t j ≠ .free) : lowestFree t = some slot := by
  unfold lowestFree
  rw [List.findIdx?_eq_some_iff_getElem]
  refine ⟨hlt, ?_, fun j hj => ?_⟩
  · simp [entryAt, List.getD_eq_getElem?_getD, hlt] at hfree
    simp [hfree, Entry.isFree]
  · have hj' : j < t.length := by omega
    have := hlow j hj
    simp [entryAt, List.getD_eq_getElem?_getD, hj'] at this
    revert this
    cases t[j] <;> simp [Entry.isFree]

/-! ### Several entries freed at once -/

/-- The table and the store after the selected entries became FREE (R13, R30). -/
theorem State.freeEntries_effect (s : State) (which : Entry → Bool) :
    s.freeEntries which = { s with
      table := s.table.map (fun e => if which e then .free else e)
      store := { s.store with freeList := insertExtents (extentsWhere which s.table) s.store.freeList } } := rfl

/-- The free total after the selected entries became FREE (R13, R30). -/
theorem State.freeEntries_freeTotal (s : State) (which : Entry → Bool) :
    freeTotal (s.freeEntries which).store.freeList
      = freeTotal s.store.freeList + ((extentsWhere which s.table).map Extent.length).sum := by
  rw [State.freeEntries_effect]
  exact freeTotal_insertExtents _ _

end Sys2Proof.Machine
end

