-- ==== Sys2Proof/Laws/Requests.lean ====
section
/-! SUPPORT. The request set and the read in flight: reading one place of the set after each operation on it, and all that a grant
can do. -/

namespace Sys2Proof.Machine

variable (x : Xmc) (p q : Port) (k l : SlotId) (r : Option Request)

/-- Every requester is listed. -/
theorem mem_allRequesters (q : Requester) : q ∈ allRequesters := by
  rcases q with ⟨p, k⟩ | _ <;> first | (cases p <;> cases k <;> decide) | decide

/-- A request of the set stands in some place. -/
theorem Xmc.mem_requests {x : Xmc} {r : Request} : r ∈ x.requests ↔ ∃ q, x.requestOf q = some r := by
  simp only [Xmc.requests, List.mem_filterMap]
  exact ⟨fun ⟨q, _, h⟩ => ⟨q, h⟩, fun ⟨q, h⟩ => ⟨q, mem_allRequesters q, h⟩⟩

@[simp] theorem Xmc.requestOf_slot : x.requestOf (.slot p k) = x.slotRequest p k := rfl
@[simp] theorem Xmc.requestOf_loader : x.requestOf .loader = x.loaderRequest := rfl

/-! ### One place of the set -/

/-- Reading a place after a place was written. -/
theorem Xmc.slotRequest_putSlotRequest :
    (x.putSlotRequest p k r).slotRequest q l = if q = p ∧ l = k then r else x.slotRequest q l := by
  unfold Xmc.slotRequest Xmc.putSlotRequest
  by_cases hq : q = p
  · subst hq
    by_cases hl : l = k
    · subst hl; simp
    · simp [hl]
  · simp [hq]

@[simp] theorem Xmc.putSlotRequest_frame :
    (x.putSlotRequest p k r).loaderRequest = x.loaderRequest ∧ (x.putSlotRequest p k r).inFlight = x.inFlight
      ∧ (x.putSlotRequest p k r).pointer = x.pointer ∧ (x.putSlotRequest p k r).faults = x.faults
      ∧ (x.putSlotRequest p k r).lastFault = x.lastFault := by
  simp [Xmc.putSlotRequest]

/-- A released place is empty, and the others are as they were (R75). -/
theorem Xmc.slotRequest_release :
    (x.release p k).slotRequest q l = if q = p ∧ l = k then none else x.slotRequest q l :=
  Xmc.slotRequest_putSlotRequest x p q k l none

/-- A release leaves the loader's request, the pointer and the fault record (R75, R76). -/
@[simp] theorem Xmc.release_frame :
    (x.release p k).loaderRequest = x.loaderRequest ∧ (x.release p k).pointer = x.pointer
      ∧ (x.release p k).faults = x.faults ∧ (x.release p k).lastFault = x.lastFault := by
  simp [Xmc.release]

/-- A release orphans the read in flight if it is the slot's, and leaves it otherwise (R76). -/
theorem Xmc.inFlight_release :
    (x.release p k).inFlight
      = x.inFlight.map (fun r => if r.requester = .slot p k then { r with orphan := true } else r) := rfl

/-- After a release no read serves the slot; for every other slot nothing has changed (R76). -/
theorem Xmc.servesSlot_release (line : Nat) :
    (x.release p k).servesSlot q l line ↔ ¬ (q = p ∧ l = k) ∧ x.servesSlot q l line := by
  unfold Xmc.servesSlot
  rw [Xmc.inFlight_release]
  cases h : x.inFlight with
  | none => simp
  | some r =>
    simp only [Option.map_some, Option.some.injEq, exists_eq_left']
    by_cases hr : r.requester = .slot p k
    · rw [if_pos hr]
      simp only [hr, Requester.slot.injEq, Bool.true_eq_false, false_and, and_false, false_iff, not_and]
      tauto
    · rw [if_neg hr]
      constructor
      · rintro ⟨h1, h2⟩
        exact ⟨fun ⟨ha, hb⟩ => hr (by rw [h1, ha, hb]), h1, h2⟩
      · exact fun h => h.2

/-- Reading a place after all requests gained a pass (R69). -/
theorem Xmc.requestOf_ageAll (q : Requester) : x.ageAll.requestOf q = (x.requestOf q).map Request.age := by
  rcases q with ⟨p, k⟩ | _
  · cases p <;> cases k <;> rfl
  · rfl

/-- Reading a place after one requester's request was removed. -/
theorem Xmc.requestOf_remove (q q' : Requester) :
    (x.remove q).requestOf q' = if q' = q then none else x.requestOf q' := by
  rcases q with ⟨p, k⟩ | _ <;> rcases q' with ⟨p', k'⟩ | _ <;>
    simp [Xmc.remove, Xmc.slotRequest_putSlotRequest]
  rfl

@[simp] theorem Xmc.remove_frame (q : Requester) :
    (x.remove q).inFlight = x.inFlight ∧ (x.remove q).pointer = x.pointer ∧ (x.remove q).faults = x.faults
      ∧ (x.remove q).lastFault = x.lastFault := by
  cases q <;> simp [Xmc.remove]

@[simp] theorem Xmc.ageAll_frame :
    x.ageAll.inFlight = x.inFlight ∧ x.ageAll.pointer = x.pointer ∧ x.ageAll.faults = x.faults
      ∧ x.ageAll.lastFault = x.lastFault := by
  simp [Xmc.ageAll]

/-- A controller whose read ended as a fault (R73, R79). -/
@[simp] theorem Xmc.clearRead_recordFault (x : Xmc) (line : Nat) : x.clearRead.recordFault line = x.faulted line := rfl

/-! ### The grant -/

/-- Every requester stands in the grant order, whatever the pointer and the roles (R68). -/
theorem mem_grantOrder (pointer : Port) (roles : PerPort SlotId) (q : Requester) : q ∈ grantOrder pointer roles := by
  have hk : ∀ k k' : SlotId, k = k' ∨ k = k'.other := by intro k k'; cases k <;> cases k' <;> decide
  rcases q with ⟨p, k⟩ | _
  · have := hk k (roles.get p)
    cases pointer <;> cases p <;> simpa [grantOrder, nextPort] using this
  · simp [grantOrder]

/-- A candidate's request is one of the lowest effective level (R68 step 1). -/
theorem Xmc.isCandidate_iff (q : Requester) :
    x.isCandidate q = true ↔ ∃ r, x.requestOf q = some r ∧ x.lowestLevel = some r.effective := by
  unfold Xmc.isCandidate
  cases h : x.requestOf q <;> simp

/-- All that a grant can do (R67 to R69): nothing while a read is in flight or the set is empty, else the chosen request becomes
the read in flight. -/
theorem Xmc.grant_cases (roles : PerPort SlotId) :
    (x.grant roles = x ∧ (x.inFlight ≠ none ∨ x.choose roles = none)) ∨
      (x.inFlight = none ∧ ∃ q r, x.choose roles = some q ∧ x.requestOf q = some r ∧
        x.grant roles = { (x.remove q).ageAll with inFlight := some ⟨q, r.line, [], false⟩, pointer := pointerAfter x.pointer q }) := by
  unfold Xmc.grant
  split
  · rename_i hf
    exact .inl ⟨rfl, .inl (by simp [hf])⟩
  · rename_i hf
    split
    · exact .inl ⟨rfl, .inr ‹_›⟩
    · rename_i q hq
      obtain ⟨r, hr, -⟩ := (x.isCandidate_iff q).mp (List.find?_some hq)
      exact .inr ⟨hf, q, r, hq, hr, by simp [Xmc.grantTo, hr]⟩

/-- The fault record is no concern of a grant. -/
@[simp] theorem Xmc.grant_frame (roles : PerPort SlotId) :
    (x.grant roles).faults = x.faults ∧ (x.grant roles).lastFault = x.lastFault := by
  rcases x.grant_cases roles with ⟨h, -⟩ | ⟨-, q, r, -, -, h⟩ <;> simp [h]

/-- The loader's request is granted at once by an idle controller: its level is 0, and the loader comes first (R68). -/
theorem Xmc.grant_loader {x : Xmc} (roles : PerPort SlotId) (h : x.inFlight = none) {line : Nat}
    (hr : x.loaderRequest = some ⟨line, 0, 0⟩) : (x.grant roles).inFlight = some ⟨.loader, line, [], false⟩ := by
  have hl : x.lowestLevel = some 0 := by
    unfold Xmc.lowestLevel
    rw [List.min?_eq_some_iff]
    refine ⟨?_, fun b _ => Nat.zero_le b⟩
    rw [List.mem_map]
    refine ⟨⟨line, 0, 0⟩, ?_, rfl⟩
    unfold Xmc.requests
    rw [List.mem_filterMap]
    exact ⟨.loader, by simp, hr⟩
  have hc : x.choose roles = some .loader := by
    simp [Xmc.choose, grantOrder, Xmc.isCandidate, Xmc.requestOf, hr, hl, Request.effective, Config.agingThreshold]
  simp [Xmc.grant, h, hc, Xmc.grantTo, Xmc.requestOf, hr]

/-- A controller that is idle after a grant had an empty set (R67). -/
theorem Xmc.requestOf_of_grant_idle {x : Xmc} {roles : PerPort SlotId} (h : (x.grant roles).inFlight = none) (q : Requester) :
    x.requestOf q = none := by
  rcases x.grant_cases roles with ⟨hg, hn⟩ | ⟨-, q', r, -, -, hg⟩
  · rw [hg] at h
    have hc : x.choose roles = none := hn.resolve_left (fun hn => hn h)
    have hno : ∀ q, x.isCandidate q = false := fun q =>
      Bool.eq_false_iff.mpr (List.find?_eq_none.mp hc q (mem_grantOrder x.pointer roles q))
    by_contra hq
    obtain ⟨r, hr⟩ := Option.ne_none_iff_exists'.mp hq
    have hm : r ∈ x.requests := Xmc.mem_requests.mpr ⟨q, hr⟩
    cases hl : x.lowestLevel with
    | none =>
      rw [Xmc.lowestLevel, List.min?_eq_none_iff, List.map_eq_nil_iff] at hl
      rw [hl] at hm
      cases hm
    | some l =>
      obtain ⟨r', hr', hl'⟩ := List.mem_map.mp (List.min?_mem hl)
      obtain ⟨q', hq'⟩ := Xmc.mem_requests.mp hr'
      have := (x.isCandidate_iff q').mpr ⟨r', hq', by rw [hl, hl']⟩
      rw [hno q'] at this
      cases this
  · rw [hg] at h
    cases h

end Sys2Proof.Machine
end

