-- ==== Sys2Proof/Laws/Sessions.lean ====
section
/-! SUPPORT. Notices and sessions: what handing a notice, restarting the idle timer, ending a session and releasing one make of
the state. -/

namespace Sys2Proof.Machine

variable {s : State} {p : Port}

/-- Handing a notice (R157). -/
theorem NoticeUnit.hand_eq_given (u : NoticeUnit) (n : Notice) : u.hand n = u.given n := rfl

theorem State.hand_effect (s : State) (p : Port) (n : Notice) :
    s.hand p n = { s with notices := s.notices.set p ((s.notices.get p).given n) } := rfl

/-- The owner of a session (R107). -/
theorem State.isOwner_iff : s.isOwner p = true ↔ ∃ ses, s.edit.session = some ses ∧ ses.owner = p := by
  unfold State.isOwner
  cases h : s.edit.session <;> simp

theorem State.isOwner_eq_false : s.isOwner p = false ↔ ∀ ses, s.edit.session = some ses → ses.owner ≠ p := by
  unfold State.isOwner
  cases h : s.edit.session <;> simp

/-- The op list of an open session. -/
theorem State.ops_of_session {ses : Session} (h : s.edit.session = some ses) : s.ops = ses.ops := by
  simp [State.ops, h]

/-- The owner's idle timer restarts (R115). -/
theorem State.restartIdle_owner {ses : Session} (h : s.edit.session = some ses) (ho : ses.owner = p) :
    s.restartIdle p = { s with
      edit := { s.edit with session := some { ses with idleTimer := { ses.idleTimer with elapsed := 0 } } } } := by
  have := State.isOwner_iff.mpr ⟨ses, h, ho⟩
  simp [State.restartIdle, this, h, State.putEdit]

/-- Another port's request does not restart it (R115). -/
theorem State.restartIdle_other (h : s.isOwner p = false) : s.restartIdle p = s := by
  simp [State.restartIdle, h]

/-- The op list is replaced. -/
theorem State.putOps_effect {ses : Session} (h : s.edit.session = some ses) (ops : List Op) :
    s.putOps ops = { s with edit := { s.edit with session := some { ses with ops := ops } } } := by
  simp [State.putOps, h, State.putEdit]

/-- The end of a session (R113): the edit controller is handed over, and the new owner is given its notice. -/
theorem State.endSession_effect (s : State) :
    s.endSession = { s with
      edit := handedOver s.edit.claimQueue s.loader.defaults.idleLimit
      notices := PerPort.tabulate (grantedTo s.notices s.edit.claimQueue s.gen.current) } := by
  unfold State.endSession handedOver
  split
  · rename_i hq
    have : (PerPort.tabulate (grantedTo s.notices [] s.gen.current)) = s.notices := by
      apply PerPort.ext_get
      intro q
      simp [grantedTo]
    simp only [State.putEdit, hq, this]
  · rename_i q rest hq
    have : s.notices.set q ((s.notices.get q).given (.sessionGranted s.gen.current))
        = PerPort.tabulate (grantedTo s.notices (q :: rest) s.gen.current) := by
      apply PerPort.ext_get
      intro q'
      by_cases h : q' = q
      · subst h; simp [grantedTo]
      · simp [grantedTo, h, Ne.symm h]
    rw [State.hand_effect]
    simp [State.openSession, State.putEdit, hq, this]

/-- What a release makes of an entry is FREE for a STAGED one and unmarked for a LIVE one (R112). -/
theorem Entry.unmark_freeStaged (e : Entry) :
    Entry.unmark (if Entry.isStaged e then .free else e) = Entry.released e := by
  cases e <;> rfl

/-- The release of a session (R112, R113). -/
theorem State.release_effect (s : State) :
    s.release = { s with
      table := s.table.map Entry.released
      store := { s.store with freeList := insertExtents (extentsWhere Entry.isStaged s.table) s.store.freeList }
      edit := handedOver s.edit.claimQueue s.loader.defaults.idleLimit
      notices := PerPort.tabulate (grantedTo s.notices s.edit.claimQueue s.gen.current) } := by
  unfold State.release
  simp only [State.endSession_effect, State.freeEntries, State.putTable, State.putStore, freeWhere, List.map_map,
    Store.giveBack]
  congr 1
  apply List.map_congr_left
  intro e _
  exact Entry.unmark_freeStaged e

/-- The COMMITTED notices of a commit step reach each port once (R95, R96). -/
theorem State.handCommitted_get (s : State) (before : List Entry) (n : Nat) (q : Port) :
    (s.handCommitted before n).notices.get q =
      match committedNotice before n q (s.streams.get q).settings with
      | none => s.notices.get q
      | some notice => (s.notices.get q).given notice := by
  have key : ∀ (s : State) (p q : Port) (n : Option Notice), (s.hand? p n).notices.get q =
      if q = p then (match n with | none => s.notices.get q | some notice => (s.notices.get q).given notice)
      else s.notices.get q := by
    intro s p q n
    cases n with
    | none => simp [State.hand?]
    | some n =>
      by_cases h : q = p
      · subst h; simp [State.hand?, State.hand_effect]
      · simp [State.hand?, State.hand_effect, h]
  simp only [State.handCommitted, List.foldl_cons, List.foldl_nil]
  cases q <;> simp [key, State.handOpt_frame]

end Sys2Proof.Machine
end

