-- ==== Sys2Proof/Laws/Loading.lean ====
section
/-! SUPPORT. What the end of a load, the turn to a record, and the end of a line read make of the state. -/

namespace Sys2Proof.Machine

variable (s : State)

/-- The record that the end of a load puts in force (R148 step 1). -/
theorem State.endLoad_loader :
    s.endLoad.loader = { s.loader with
      ready := true
      report := { s.loader.report with result := s.loader.report.finalResult }
      defaults := s.loader.pendingRecord.getD s.loader.defaults
      pendingRecord := none
      step := .idle } := by
  simp [State.endLoad]

/-- Every port takes its settings from that record (R148 step 2). -/
theorem State.endLoad_streams (q : Port) :
    s.endLoad.streams.get q = { s.streams.get q with
      settings := ((s.loader.pendingRecord.getD s.loader.defaults).ports.get q).settings } := by
  cases q <;>
    simp [State.endLoad, State.applyDefaults, State.putSettings, State.putStream, State.putStreams, State.putNotice,
      State.putNotices, State.putLoader, PerPort.get, PerPort.set]

/-- Every port takes its mask and is given LOAD_DONE (R148 steps 3 and 6). -/
theorem State.endLoad_notices (q : Port) :
    s.endLoad.notices.get q =
      NoticeUnit.given ⟨(s.notices.get q).queue, (s.notices.get q).overflow,
          ((s.loader.pendingRecord.getD s.loader.defaults).ports.get q).mask⟩
        (.loadDone s.gen.current s.loader.report.finalResult s.loader.report.placed s.loader.report.skipped) := by
  cases q <;>
    simp [State.endLoad, State.applyDefaults, State.putSettings, State.putStream, State.putStreams, State.putNotice,
      State.putNotices, State.putLoader, State.hand, NoticeUnit.hand_eq_given, PerPort.get, PerPort.set]

/-- The end of a load, whole (R148). -/
theorem State.endLoad_eq_loadEnded :
    s.endLoad = s.loadEnded (s.loader.pendingRecord.getD s.loader.defaults)
      { s.loader.report with result := s.loader.report.finalResult } s.xmc := by
  unfold State.loadEnded State.endLoad
  simp [State.applyDefaults, State.putSettings, State.putStream, State.putStreams, State.putNotice,
      State.putNotices, State.putLoader, State.hand, NoticeUnit.hand_eq_given, PerPort.get, PerPort.set, PerPort.tabulate]

/-- The loader's wait for a line (R81, R136). -/
theorem State.loaderRead_effect (step : LoaderStep) (line : Nat) :
    s.loaderRead step line = { s with
      loader := { s.loader with step := step }, xmc := { s.xmc with loaderRequest := some ⟨line, 0, 0⟩ } } := rfl

/-- The turn to a record (R136, R146). -/
theorem State.beginRecord_of_lt {i : Nat} (h : i < s.loader.recordCount) :
    s.beginRecord i = { s with
      loader := { s.loader with recordIndex := i, step := .record }
      xmc := { s.xmc with loaderRequest := some ⟨recordLine s.loader.dirsel i, 0, 0⟩ } } := by
  unfold State.beginRecord
  rw [if_pos h]
  rfl

/-- The turn past the last record (R146, R148). -/
theorem State.beginRecord_of_le {i : Nat} (h : s.loader.recordCount ≤ i) :
    s.beginRecord i = (s.putLoader { s.loader with recordIndex := i }).endLoad := by
  unfold State.beginRecord
  rw [if_neg (by omega)]

/-- The turn past a record, with the grant that follows, is what `recordDone` says of it (R73, R136, R146 to R148). -/
theorem State.recordDone_of_beginRecord {d : Defaults} {report : LoadReport} (hi : s.xmc.inFlight = none)
    (hd : s.loader.pendingRecord = some d) (hh : report.headerCause = .ok) :
    s.recordDone d report s.xmc
      ((s.putLoader { s.loader with report := report }).beginRecord (s.loader.recordIndex + 1)).grant := by
  constructor
  · intro h
    rw [State.beginRecord_of_lt _ (by simpa [State.putLoader] using h)]
    exact ⟨rfl, Xmc.grant_loader
      (x := { s.xmc with loaderRequest := some ⟨recordLine s.loader.dirsel (s.loader.recordIndex + 1), 0, 0⟩ })
      s.roles hi rfl⟩
  · intro h
    rw [State.beginRecord_of_le _ (by simpa [State.putLoader] using h), State.endLoad_eq_loadEnded]
    simp [State.putLoader, State.loadEnded, LoadReport.finalResult, hd, hh, State.grant, State.putXmc, State.roles]

/-- All that the end of a line read can do (R73, R76): the result discarded, given to a line slot, or given to the loader, and the
grant that follows. -/
theorem State.endRead_cases (r : Read) (result : Option (List Byte)) :
    let s1 := s.putXmc (if result.isNone then s.xmc.clearRead.recordFault r.line else s.xmc.clearRead)
    s.endRead r result =
      (if r.orphan then s1
        else match r.requester, result with
          | .slot p k, result => s1.putSlot p k (((s.streams.get p).slots.get k).receive result)
          | .loader, some data => s1.loaderData data
          | .loader, none => s1.loaderFault).grant := by
  unfold State.endRead State.handOver
  dsimp only
  cases r.orphan
  · cases r.requester
    · simp
    · cases result <;> simp
  · simp

end Sys2Proof.Machine
end

