-- ==== Sys2Proof/Laws/Memory.lean ====
section
/-! SUPPORT. The overlay store's bytes: every memory operation keeps the canonical form, a read after a write gives the value
written, and a write leaves every other byte alone. -/

namespace Sys2Proof.Machine

/-! ### Canonical form -/

/-- Rising, one cell at a time. -/
theorem Memory.rising_cons (c : Host.Cell) (m : Memory) :
    Memory.rising (c :: m) = true ↔ (∀ d ∈ m.head?, c.1 < d.1) ∧ Memory.rising m = true := by
  cases m <;> simp [Memory.rising]

/-- The head of a written list is the written cell or the old head. -/
theorem Memory.head_write (a : Nat) (b : Byte) (m : Memory) :
    ∀ d ∈ (Memory.write a b m).head?, d.1 = a ∨ d ∈ m.head? := by
  cases m with
  | nil => simp [Memory.write]
  | cons c m =>
    unfold Memory.write
    split
    · simp
    · split <;> simp

/-- A write keeps the addresses rising. -/
theorem Memory.rising_write (a : Nat) (b : Byte) (m : Memory) (h : Memory.rising m = true) :
    Memory.rising (Memory.write a b m) = true := by
  induction m with
  | nil => simp [Memory.write, Memory.rising]
  | cons c m ih =>
    rw [Memory.rising_cons] at h
    unfold Memory.write
    split
    · rw [Memory.rising_cons, Memory.rising_cons]
      exact ⟨by simpa using ‹a < c.1›, h⟩
    · split
      · rw [Memory.rising_cons]
        subst_vars
        exact h
      · rw [Memory.rising_cons]
        refine ⟨fun d hd => ?_, ih h.2⟩
        rcases Memory.head_write a b m d hd with hd | hd
        · omega
        · exact h.1 d hd

/-- A written list holds the written cell and old cells only. -/
theorem Memory.mem_write {a : Nat} {b : Byte} {m : Memory} {c : Host.Cell} (h : c ∈ Memory.write a b m) :
    c = (a, b) ∨ c ∈ m := by
  induction m with
  | nil => simpa [Memory.write] using h
  | cons d m ih =>
    unfold Memory.write at h
    split at h
    · simpa using h
    · split at h
      · rcases List.mem_cons.mp h with h | h
        · exact .inl h
        · exact .inr (List.mem_cons_of_mem _ h)
      · rcases List.mem_cons.mp h with h | h
        · exact .inr (by simp [h])
        · exact (ih h).imp id (List.mem_cons_of_mem _)

/-- A write inside the store keeps the canonical form. -/
theorem Memory.wf_write {a : Nat} {b : Byte} {m : Memory} (h : Memory.wf m = true) (ha : a < Config.storeBytes) :
    Memory.wf (Memory.write a b m) = true := by
  simp only [Memory.wf, Bool.and_eq_true, List.all_eq_true, decide_eq_true_eq] at *
  refine ⟨Memory.rising_write a b m h.1, fun c hc => ?_⟩
  rcases Memory.mem_write hc with rfl | hc
  · exact ha
  · exact h.2 c hc

/-- Writing bytes inside the store keeps the canonical form. -/
theorem Memory.wf_writeBytes {a : Nat} {bs : List Byte} {m : Memory} (h : Memory.wf m = true)
    (ha : a + bs.length ≤ Config.storeBytes) : Memory.wf (Memory.writeBytes a bs m) = true := by
  induction bs generalizing a m with
  | nil => exact h
  | cons b bs ih =>
    simp only [List.length_cons] at ha
    exact ih (Memory.wf_write h (by omega)) (by omega)

/-- Writing a line of at most 32 bytes into a store line that exists keeps the canonical form (R24, R31, R32). -/
theorem Store.wf_writeLine {st : Store} {n : Nat} {data : List Byte} (h : Memory.wf st.content = true)
    (hn : n < Config.storeLines) (hd : data.length ≤ Config.lineBytes) : Memory.wf (st.writeLine n data).content = true := by
  refine Memory.wf_writeBytes h ?_
  simp only [Config.storeLines, Config.lineBytes, Config.storeBytes] at *
  omega

/-- The content after a restart is in the canonical form (R26, log entry 1). -/
theorem Store.wf_restart (st : Store) : Memory.wf st.restart.content = true := rfl

/-- The memory of the reset state is in the canonical form. -/
theorem Memory.wf_reset : Memory.wf State.reset.store.content = true := rfl

/-! ### Reading after writing -/

/-- The written byte is found. -/
@[simp] theorem Memory.find_write_same (a : Nat) (b : Byte) (m : Memory) : Memory.find a (Memory.write a b m) = some b := by
  induction m with
  | nil => simp [Memory.write, Memory.find]
  | cons c m ih =>
    unfold Memory.write
    split
    · simp [Memory.find]
    · split
      · simp [Memory.find]
      · have : ¬ c.1 = a := by omega
        simp [Memory.find, this, ih]

/-- A write leaves every other address as it was. -/
theorem Memory.find_write_ne {a a' : Nat} (b : Byte) (m : Memory) (h : a' ≠ a) :
    Memory.find a' (Memory.write a b m) = Memory.find a' m := by
  induction m with
  | nil => simp [Memory.write, Memory.find, Ne.symm h]
  | cons c m ih =>
    unfold Memory.write
    split
    · simp [Memory.find, Ne.symm h]
    · split
      · subst_vars
        simp [Memory.find, Ne.symm h]
      · simp [Memory.find, ih]

/-- Writing bytes leaves every address outside them as it was. -/
theorem Memory.find_writeBytes_outside {a a' : Nat} (bs : List Byte) (m : Memory) (h : a' < a ∨ a + bs.length ≤ a') :
    Memory.find a' (Memory.writeBytes a bs m) = Memory.find a' m := by
  induction bs generalizing a m with
  | nil => rfl
  | cons b bs ih =>
    simp only [List.length_cons] at h
    unfold Memory.writeBytes
    rw [ih _ (by omega), Memory.find_write_ne _ _ (by omega)]

/-- Written bytes are found at their addresses. -/
theorem Memory.find_writeBytes_inside {a i : Nat} (bs : List Byte) (m : Memory) (h : i < bs.length) :
    Memory.find (a + i) (Memory.writeBytes a bs m) = some bs[i] := by
  induction bs generalizing a i m with
  | nil => simp at h
  | cons b bs ih =>
    unfold Memory.writeBytes
    cases i with
    | zero => simp [Memory.find_writeBytes_outside bs (Memory.write a b m) (show a < a + 1 ∨ _ from .inl (by omega))]
    | succ i =>
      have := ih (a := a + 1) (i := i) (Memory.write a b m) (by simpa using h)
      rw [show a + (i + 1) = a + 1 + i by omega, this]
      rfl

/-- A written line reads back (R31, R32, R34). -/
theorem Store.byte_writeLine_same {st : Store} {n i : Nat} {data : List Byte} (h : i < data.length) :
    (st.writeLine n data).byte n i = data[i] := by
  simp [Store.byte, Store.writeLine, Memory.read, Memory.find_writeBytes_inside data st.content h]

/-- A written line leaves every other line as it was (R31, R32, R33). -/
theorem Store.byte_writeLine_other {st : Store} {n n' i : Nat} {data : List Byte} (hn : n' ≠ n)
    (hi : i < Config.lineBytes) (hd : data.length ≤ Config.lineBytes) :
    (st.writeLine n data).byte n' i = st.byte n' i := by
  simp only [Config.lineBytes] at hi hd
  simp only [Store.byte, Store.writeLine, Memory.read, Config.lineBytes]
  rw [Memory.find_writeBytes_outside]
  omega

/-- Giving lines back and taking lines leave every byte as it was (R26, R27, R29). -/
@[simp] theorem Store.byte_giveBack (st : Store) (xs : List Extent) (n i : Nat) : (st.giveBack xs).byte n i = st.byte n i := rfl

@[simp] theorem Store.byte_take (st : Store) (m n i : Nat) : (st.take m).byte n i = st.byte n i := rfl

@[simp] theorem Store.content_giveBack (st : Store) (xs : List Extent) : (st.giveBack xs).content = st.content := rfl

@[simp] theorem Store.content_take (st : Store) (m : Nat) : (st.take m).content = st.content := rfl

@[simp] theorem Store.freeList_writeLine (st : Store) (n : Nat) (data : List Byte) :
    (st.writeLine n data).freeList = st.freeList := rfl

end Sys2Proof.Machine
end

