-- ==== Sys2Proof/Laws/PerInstr.lean ====
section
/-! SUPPORT. One law of the syntax, constructor by constructor: the payload a well-formed request carries has the length that
R173 gives its kind. -/

namespace Sys2Proof.Laws.PayloadLength

open Sys2Proof.Machine

/-- The payload of a well-formed request command has its kind's payload length (R173). -/
def Statement (c : Instr) : Prop :=
  ∀ (p : Port) (k : Kind) (payload : List Byte), c.wellFormed = true → requestOf c = some (p, k, payload) →
    payload.length = payloadLength k

theorem seek (p : Port) (line : BitVec 24) : Statement (.seek p line) := fun _ _ _ _ h => by cases h; rfl

theorem next (p : Port) : Statement (.next p) := fun _ _ _ _ h => by cases h; rfl

theorem portSet (p : Port) (level prefetch mask base size : Byte) : Statement (.portSet p level prefetch mask base size) := fun _ _ _ _ h => by cases h; rfl

theorem status (p : Port) : Statement (.status p) := fun _ _ _ _ h => by cases h; rfl

theorem tableRead (p : Port) (slot : Byte) : Statement (.tableRead p slot) := fun _ _ _ _ h => by cases h; rfl

theorem noticeTake (p : Port) : Statement (.noticeTake p) := fun _ _ _ _ h => by cases h; rfl

theorem claim (p : Port) (wait : Byte) : Statement (.claim p wait) := fun _ _ _ _ h => by cases h; rfl

theorem add (p : Port) (tag : BitVec 16) (line : BitVec 24) (length scope : Byte) (sum : BitVec 16) : Statement (.add p tag line length scope sum) := fun _ _ _ _ h => by cases h; rfl

theorem fill (p : Port) (slot index : Byte) (data : List Byte) : Statement (.fill p slot index data) := by
  intro q k payload hw h
  cases h
  simpa [fillPayload, payloadLength, Config.lineBytes, Instr.wellFormed] using hw

theorem remove (p : Port) (slot : Byte) : Statement (.remove p slot) := fun _ _ _ _ h => by cases h; rfl

theorem commit (p : Port) : Statement (.commit p) := fun _ _ _ _ h => by cases h; rfl

theorem abort (p : Port) : Statement (.abort p) := fun _ _ _ _ h => by cases h; rfl

theorem reload (p : Port) : Statement (.reload p) := fun _ _ _ _ h => by cases h; rfl

theorem portReset (p : Port) : Statement (.portReset p) := fun _ _ _ _ h => by cases h; rfl

theorem badFrame (p : Port) : Statement (.badFrame p) := fun _ _ _ _ h => by cases h

theorem badKind (p : Port) : Statement (.badKind p) := fun _ _ _ _ h => by cases h

theorem selectAsserted (p : Port) : Statement (.selectAsserted p) := fun _ _ _ _ h => by cases h

theorem frameDiscarded (p : Port) : Statement (.frameDiscarded p) := fun _ _ _ _ h => by cases h

theorem responseLost (p : Port) : Statement (.responseLost p) := fun _ _ _ _ h => by cases h

theorem deviceReset : Statement .deviceReset := fun _ _ _ _ h => by cases h

theorem resetEnd (straps : BitVec 2) : Statement (.resetEnd straps) := fun _ _ _ _ h => by cases h

theorem timebaseTick : Statement .timebaseTick := fun _ _ _ _ h => by cases h

theorem drainExpiry : Statement .drainExpiry := fun _ _ _ _ h => by cases h

theorem sessionExpiry : Statement .sessionExpiry := fun _ _ _ _ h => by cases h

theorem accessCompletes (xd : Halfword) : Statement (.accessCompletes xd) := fun _ _ _ _ h => by cases h

theorem readyLimitExceeded : Statement .readyLimitExceeded := fun _ _ _ _ h => by cases h

theorem byteReceived (p : Port) (lo hi : BitVec 4) : Statement (.byteReceived p lo hi) := fun _ _ _ _ h => by cases h

theorem byteSent (p : Port) : Statement (.byteSent p) := fun _ _ _ _ h => by cases h

theorem selectReleased (p : Port) : Statement (.selectReleased p) := fun _ _ _ _ h => by cases h

end Sys2Proof.Laws.PayloadLength
end

