-- ==== Sys2Proof/Laws/Streams.lean ====
section
/-! SUPPORT. What each stream operation makes of a port's stream unit, of the request set and of the bindings, and that the other
ports' stream units stay. -/

namespace Sys2Proof.Machine

variable (s : State) (p q : Port) (k l : SlotId)

/-! ### One slot -/

/-- A replaced slot. -/
theorem State.putSlot_streams (x : LineSlot) :
    (s.putSlot p k x).streams = s.streams.set p { s.streams.get p with slots := (s.streams.get p).slots.set k x } := rfl

/-- A placed request changes the request set only (R66). -/
theorem State.placeSlotRequest_xmc (line : Nat) :
    (s.placeSlotRequest p k line).xmc
      = s.xmc.putSlotRequest p k (some ⟨line, (s.streams.get p).settings.level, 0⟩) := rfl

/-- The lookup a stream unit makes is the one `slotByLookup` speaks of (R43, R45). -/
theorem State.lookupLine_eq (portLine : Nat) :
    s.lookupLine p portLine
      = lookup s.table s.gen.current s.gen.superseded (s.boundGeneration p) p
          ((s.streams.get p).settings.physical portLine) := rfl

/-- A filled slot holds what the lookup gives (R45). -/
theorem State.fillSlot_streams (portLine : Nat) :
    (s.fillSlot p k portLine).streams = s.streams.set p { s.streams.get p with
      slots := (s.streams.get p).slots.set k (s.slotByLookup p (s.boundGeneration p) portLine) } := by
  unfold State.fillSlot State.slotByLookup
  rw [State.lookupLine_eq]
  generalize lookup _ _ _ _ _ _ = r
  rcases r with _ | ⟨_, _⟩ <;> rfl

/-- A fill places a request exactly on a miss (R45). -/
theorem State.fillSlot_xmc (portLine : Nat) :
    (s.fillSlot p k portLine).xmc = (match s.lookupLine p portLine with
      | some _ => s.xmc
      | none => s.xmc.putSlotRequest p k
          (some ⟨(s.streams.get p).settings.physical portLine, (s.streams.get p).settings.level, 0⟩)) := by
  unfold State.fillSlot
  split
  · rename_i h; simp only [h]; rfl
  · rename_i h
    simp [h, State.placeSlotRequest_xmc, State.putSlot_streams]

/-- A fill leaves the place of its slot with the new request on a miss, as it was on a hit, and every other place as it was
(R45, R66). -/
theorem State.fillSlot_xmc_eq (portLine : Nat) :
    (s.fillSlot p k portLine).xmc = { s.xmc with
      slotRequests := s.xmc.slotRequests.set p ((s.xmc.slotRequests.get p).set k
        (((s.streams.get p).settings.requestFor (s.slotByLookup p (s.boundGeneration p) portLine)).or
          (s.xmc.slotRequest p k))) } := by
  rw [State.fillSlot_xmc, State.lookupLine_eq]
  unfold State.slotByLookup
  generalize lookup _ _ _ _ _ _ = r
  rcases r with _ | ⟨_, _⟩
  · simp [Settings.requestFor, Xmc.putSlotRequest]
  · simp only [Settings.requestFor, Option.none_or, Xmc.slotRequest]
    cases p <;> cases k <;> rfl

/-- An abandoned slot (R46). -/
theorem State.abandon_streams :
    (s.abandon p k).streams = s.streams.set p { s.streams.get p with slots := (s.streams.get p).slots.set k .empty } := rfl

theorem State.abandon_xmc : (s.abandon p k).xmc = s.xmc.release p k := rfl

/-- Both slots abandoned (R46). -/
theorem State.abandonBoth_streams :
    (s.abandonBoth p).streams = s.streams.set p { s.streams.get p with slots := ⟨.empty, .empty⟩ } := by
  simp [State.abandonBoth, State.abandon_streams, PerSlot.set]

theorem State.abandonBoth_xmc : (s.abandonBoth p).xmc = (s.xmc.release p .a).release p .b := rfl

/-- Both places of a port are empty once its slots were abandoned (R75). -/
theorem State.abandonBoth_slotRequests :
    (s.abandonBoth p).xmc.slotRequests = s.xmc.slotRequests.set p ⟨none, none⟩ := by
  cases p <;> rfl

/-- A read in flight for a slot of the port is orphaned once its slots were abandoned (R76). -/
theorem State.abandonBoth_inFlight :
    (s.abandonBoth p).xmc.inFlight = s.xmc.inFlight.map (fun (r : Read) =>
      if r.requester = Requester.slot p .a ∨ r.requester = Requester.slot p .b then { r with orphan := true } else r) := by
  rw [State.abandonBoth_xmc, Xmc.inFlight_release, Xmc.inFlight_release, Option.map_map]
  congr 1
  funext r
  by_cases ha : r.requester = .slot p .a
  · simp [ha]
  · by_cases hb : r.requester = .slot p .b <;> simp [ha, hb]

/-- After both slots were abandoned nothing is outstanding for the port, and the other ports' requests stay (R46, R75, R76). -/
theorem State.abandonBoth_slotRequest :
    (s.abandonBoth p).xmc.slotRequest q l = if q = p then none else s.xmc.slotRequest q l := by
  rw [State.abandonBoth_xmc, Xmc.slotRequest_release, Xmc.slotRequest_release]
  by_cases h : q = p <;> cases l <;> simp [h]

theorem State.abandonBoth_servesSlot (line : Nat) :
    (s.abandonBoth p).xmc.servesSlot q l line ↔ q ≠ p ∧ s.xmc.servesSlot q l line := by
  rw [State.abandonBoth_xmc, Xmc.servesSlot_release, Xmc.servesSlot_release]
  by_cases h : q = p <;> cases l <;> simp [h]

@[simp] theorem State.abandonBoth_record :
    (s.abandonBoth p).xmc.faults = s.xmc.faults ∧ (s.abandonBoth p).xmc.lastFault = s.xmc.lastFault
      ∧ (s.abandonBoth p).xmc.pointer = s.xmc.pointer ∧ (s.abandonBoth p).xmc.loaderRequest = s.xmc.loaderRequest := by
  rw [State.abandonBoth_xmc]
  simp

/-! ### Whole streams -/

/-- A stream closed IDLE (R62). -/
theorem State.closeIdle_streams :
    (s.closeIdle p).streams = s.streams.set p { s.streams.get p with
      state := .idle, counter := 0, slots := ⟨.empty, .empty⟩ } := by
  simp [State.closeIdle, State.abandonBoth_streams]

theorem State.closeIdle_xmc : (s.closeIdle p).xmc = (s.abandonBoth p).xmc := rfl

/-- A stream closed STALE (R57). -/
theorem State.closeStale_streams :
    (s.closeStale p).streams = s.streams.set p { s.streams.get p with
      state := .stale (s.streams.get p).counter, counter := 0, slots := ⟨.empty, .empty⟩ } := by
  simp [State.closeStale, State.abandonBoth_streams]

theorem State.closeStale_xmc : (s.closeStale p).xmc = (s.abandonBoth p).xmc := rfl

/-- The other ports' stream units stay: filling, promoting, opening and advancing touch one port. -/
theorem State.fillAhead_other (h : q ≠ p) : (s.fillAhead p).streams.get q = s.streams.get q := by
  unfold State.fillAhead
  dsimp only
  split
  · rw [State.fillSlot_streams, PerPort.get_set_ne _ _ h]
  · rfl

theorem State.openStream_other (line : Nat) (h : q ≠ p) : (s.openStream p line).streams.get q = s.streams.get q := by
  unfold State.openStream
  dsimp only
  rw [State.fillAhead_other _ _ _ h, State.fillSlot_streams]
  simp [h, State.abandonBoth_streams]

theorem State.advance_other (h : q ≠ p) : (s.advance p).streams.get q = s.streams.get q := by
  unfold State.advance
  dsimp only
  split
  · simp [h]
  · split
    · rw [State.fillAhead_other _ _ _ h, State.fillSlot_streams]; simp [h]
    · rw [State.fillAhead_other _ _ _ h]; simp [h]

/-! ### Bindings -/

/-- The end of a drain (R99). -/
theorem State.drainEnd_effect :
    s.drainEnd = { s with
      gen := { s.gen with superseded := none, drainTimer := none }
      table := s.table.map (fun e => if Entry.isRetiring e then .free else e)
      store := { s.store with freeList := insertExtents (extentsWhere Entry.isRetiring s.table) s.store.freeList } } := rfl

/-- All that a change of binding can do (R88, R89): the binding alone, or with it the end of the drain when the port was the last
bound to S. -/
theorem State.rebind_cases (b : Option Nat) :
    (s.rebind p b = { s with gen := { s.gen with bindings := s.gen.bindings.set p b } }
        ∧ ¬ ∃ g, s.gen.superseded = some g ∧ s.gen.bindings.get p = some g ∧
            ∀ q, (s.gen.bindings.set p b).get q ≠ some g) ∨
      (∃ g, s.gen.superseded = some g ∧ s.gen.bindings.get p = some g ∧
        (∀ q, (s.gen.bindings.set p b).get q ≠ some g) ∧
        s.rebind p b = (s.putGen { s.gen with bindings := s.gen.bindings.set p b }).drainEnd) := by
  have hany : ∀ (v : PerPort (Option Nat)) (g : Nat), anyBoundTo v g = false ↔ ∀ q, v.get q ≠ some g := by
    intro v g
    simp only [anyBoundTo, List.any_eq_false, decide_eq_true_eq]
    exact ⟨fun h q => h q (mem_allPorts q), fun h q _ => h q⟩
  unfold State.rebind
  dsimp only
  split
  · rename_i h
    exact .inl ⟨rfl, by simp [h]⟩
  · rename_i g h
    split
    · rename_i hc
      simp only [Bool.and_eq_true, decide_eq_true_eq, Bool.not_eq_true', hany] at hc
      exact .inr ⟨g, h, hc.1, hc.2, rfl⟩
    · rename_i hc
      simp only [Bool.and_eq_true, decide_eq_true_eq, Bool.not_eq_true', hany] at hc
      refine .inl ⟨rfl, ?_⟩
      rintro ⟨g', hg, h1, h2⟩
      rw [h] at hg
      cases hg
      exact hc ⟨h1, h2⟩

/-- A change of binding keeps C and sets the port's binding (R88, R89). -/
theorem State.rebind_gen (b : Option Nat) :
    (s.rebind p b).gen.current = s.gen.current ∧ (s.rebind p b).gen.bindings = s.gen.bindings.set p b := by
  rcases s.rebind_cases p b with ⟨h, -⟩ | ⟨g, -, -, -, h⟩ <;> simp [h, State.drainEnd_effect]

/-- A change of binding leaves every byte of the store (R13, R99). -/
theorem State.rebind_byte (b : Option Nat) (n i : Nat) : (s.rebind p b).store.byte n i = s.store.byte n i := by
  rcases s.rebind_cases p b with ⟨h, -⟩ | ⟨g, -, -, -, h⟩
  · rw [h]
  · rw [h]; rfl

end Sys2Proof.Machine
end

