-- ==== Sys2Proof/Tests/Slice0.lean ====
section
/-! SUPPORT. Tests of single steps with results taken from the spec's worked examples (named at each), the WellFormed smoke
tests, and for every statement of the provers a state that meets its hypotheses. -/

namespace Sys2Proof.Tests

-- One theorem after another: each waits for the kernel, so in parallel they would only hold threads.
set_option Elab.async false

open Sys2Proof.Machine

/-! ### Helpers -/

/-- The state a command answers; the old state where it stops. -/
def run (c : Instr) (s : State) : State :=
  match exec c s with
  | .next t => t
  | .fault _ => s
  | .refused _ => s

/-- The block just after a load of no record: READY, empty table. -/
def base : State := { State.reset with inReset := false, loader := { State.reset.loader with ready := true } }

/-- Link `p` at the turnaround of these frame bytes. -/
def sending (p : Port) (bytes : List Byte) (s : State) : State :=
  s.putLink p { s.links.get p with phase := .request bytes.length bytes.sum (bytes.take 36), selected := true }

/-- Link `p` at the turnaround of the correct frame of a request. -/
def asking (p : Port) (k : Kind) (payload : List Byte) (s : State) : State := sending p (requestFrame k payload) s

/-- The response bytes that link `p` has not sent. -/
def answer (s : State) (p : Port) : List Byte :=
  match (s.links.get p).phase with
  | .response bytes => bytes
  | _ => []

/-- A port's stream unit replaced. -/
def withStream (p : Port) (u : StreamUnit) (s : State) : State := s.putStream p u

/-- A stream open at a counter, with these slots and this view. -/
def streamAt (counter : Nat) (delivery ahead : LineSlot) (base size : Nat) : StreamUnit :=
  ⟨.streaming, counter, ⟨delivery, ahead⟩, .a, ⟨base, size, 1, true⟩⟩

/-- An open session of a port. -/
def withSession (p : Port) (ops : List Op) (s : State) : State := s.putEdit ⟨some ⟨p, ⟨7, 20⟩, ops⟩, []⟩

/-- An entry's fields. -/
def fieldsOf (matchLine length : Nat) (scope : BitVec 4) (storeLine : Nat) : EntryFields :=
  ⟨0x10, matchLine, length, scope, storeLine, .loader, 0⟩

/-- The generations with C, S, HL1's binding and a drain timer while S exists. -/
def withGen (c : Nat) (sup : Option Nat) (hl1 : Option Nat) (s : State) : State :=
  s.putGen ⟨c, sup, ⟨none, hl1, none, none⟩, sup.map (fun _ => ⟨50, 5⟩)⟩

/-- A table with these entries in its first slots. -/
def tableOf (entries : List Entry) : List Entry := entries ++ List.replicate (64 - entries.length) .free

/-- A read in flight that has completed `n` accesses. -/
def reading (q : Requester) (line n : Nat) (s : State) : State :=
  s.putXmc { s.xmc with inFlight := some ⟨q, line, List.replicate n 0x0201, false⟩ }

/-! ### WellFormed -/

theorem test_wellFormed_fill_short : (Instr.fill .hl0 0 0 [1, 2, 3]).wellFormed = false := by decide
theorem test_wellFormed_fill_long : (Instr.fill .hl0 0 0 (List.replicate 33 0)).wellFormed = false := by decide
theorem test_wellFormed_fill : (Instr.fill .hl0 0 0 (List.replicate 32 0)).wellFormed = true := by decide

/-! ### Links: the exchanges of 9.9 -/

/-- Port HL1 of 9.9: streaming at counter 904, bound to 13, link error counter 2. -/
def linkExample : State :=
  withGen 13 none (some 13) (withStream .hl1 (streamAt 904 (.ready 904 .memory (List.replicate 32 0xAB)) .empty 0 256)
    (base.putLink .hl1 ⟨.idle, 2, true, none⟩))

/-- 9.9 exchange 1: a NEXT delivers line 904. -/
theorem test_next_delivers :
    let t := run (.next .hl1) (sending .hl1 [0x02, 0xFE] linkExample)
    (answer t .hl1).take 8 = [0x10, 0x88, 0x03, 0x00, 0x00, 0x0D, 0x00, 0xAB] ∧ (answer t .hl1).length = 40
      ∧ (t.streams.get .hl1).counter = 905 := by decide +kernel

/-- 9.9 exchange 2: a wrong check byte. -/
theorem test_badFrame_counts :
    let t := run (.badFrame .hl1) (sending .hl1 [0x01, 0x89, 0x03, 0x00, 0x74] linkExample)
    answer t .hl1 = [0x01, 0xFF] ∧ (t.links.get .hl1).errors = 3 := by decide +kernel

/-- 9.9 exchange 3: the SEEK accepted. -/
theorem test_seek_answers_generation :
    let t := run (.seek .hl1 905) (sending .hl1 [0x01, 0x89, 0x03, 0x00, 0x73] linkExample)
    answer t .hl1 = [0x00, 0x0D, 0x00, 0xF3] ∧ (t.streams.get .hl1).counter = 905
      ∧ (t.streams.get .hl1).deliverySlot = .waiting 905 := by decide +kernel

/-- 9.9 exchange 4: select released before the turnaround. -/
theorem test_frameDiscarded_counts :
    let t := run (.frameDiscarded .hl1) (sending .hl1 [0x01, 0x89, 0x03] linkExample)
    t.links.get .hl1 = ⟨.idle, 3, false, none⟩ := by decide +kernel

/-- 9.9 exchange 5: an undefined kind code. -/
theorem test_badKind_uncounted :
    let t := run (.badKind .hl1) (sending .hl1 [0x11, 0xEF] linkExample)
    answer t .hl1 = [0x02, 0xFE] ∧ (t.links.get .hl1).errors = 2 := by decide +kernel

/-- 9.9 exchange 6: the status byte is sent, the rest lost, and the counter stands. -/
theorem test_responseLost_keeps_action :
    let t := run (.responseLost .hl1) (run (.byteSent .hl1) (run (.next .hl1) (sending .hl1 [0x02, 0xFE] linkExample)))
    t.links.get .hl1 = ⟨.idle, 2, false, none⟩ ∧ (t.streams.get .hl1).counter = 905 := by decide +kernel

/-- 9.9 exchange 7: a STATUS with stream state 1, counter 906 and link error counter 4 at byte 28. -/
theorem test_status_fields :
    let s := (linkExample.putStream .hl1 (streamAt 906 .empty .empty 0 256)).putLink .hl1 ⟨.idle, 4, true, none⟩
    let b := answer (run (.status .hl1) (sending .hl1 [0x04, 0xFC] s)) .hl1
    b.length = 41 ∧ b.take 5 = [0x00, 0x01, 0x8A, 0x03, 0x00] ∧ b.getD 29 0 = 4 ∧ b.sum = 0 := by decide +kernel

/-- 9.9, end: PORT_RESET answers 0x00, 0x00. -/
theorem test_portReset_answer :
    let t := run (.portReset .hl1) (asking .hl1 .portReset [] linkExample)
    answer t .hl1 = [0x00, 0x00] ∧ (t.links.get .hl1).errors = 0 ∧ (t.streams.get .hl1).state = .idle
      ∧ t.gen.bindings.get .hl1 = none := by decide +kernel

/-- R166: select asserted on an idle link. -/
theorem test_selectAsserted_starts :
    (run (.selectAsserted .hl0) base).links.get .hl0 = ⟨.request 0 0 [], 0, true, none⟩ := by decide +kernel

/-- R187: the first sample gives bits 0 to 3. -/
theorem test_byteReceived_nibbles :
    ((run (.byteReceived .hl0 0x2 0xF) (run (.selectAsserted .hl0) base)).links.get .hl0).phase
      = .request 1 0xF2 [0xF2] := by decide +kernel

/-- R172: the last byte sent ends the exchange. -/
theorem test_byteSent_last :
    (run (.byteSent .hl0) (base.putLink .hl0 ⟨.response [0x5A], 0, true, none⟩)).links.get .hl0
      = ⟨.done, 0, true, some (0xA, 0x5)⟩ := by decide +kernel

/-- R187: nothing is driven before HLn_CLK falls after the mark; then bits 0 to 3, then bits 4 to 7. -/
theorem test_dataLines_nibbles :
    let s := base.putLink .hl0 ⟨.response [0x5A], 0, true, none⟩
    s.dataLines .hl0 .sinceMark = none ∧ s.dataLines .hl0 .firstNibble = some 0xA
      ∧ s.dataLines .hl0 .secondNibble = some 0x5 ∧ s.dataLines .hl1 .firstNibble = none := by decide +kernel

/-- R166: select released in DONE. -/
theorem test_selectReleased_done :
    (run (.selectReleased .hl0) (base.putLink .hl0 ⟨.done, 9, true, some (1, 0)⟩)).links.get .hl0 = ⟨.idle, 9, false, none⟩ := by
  decide +kernel

/-! ### Streams: 3.11 and 3.12 -/

/-- 3.12: the delivery of line 2047 locks the stream. -/
theorem test_next_locks_at_end :
    let s := withStream .hl0 (streamAt 2047 (.ready 2047 .memory []) .empty 0 1) base
    let t := run (.next .hl0) (asking .hl0 .next [] s)
    (t.streams.get .hl0).state = .locked ∧ (t.streams.get .hl0).counter = 2048
      ∧ (t.streams.get .hl0).slots = ⟨.empty, .empty⟩ := by decide +kernel

/-- 3.12: SEEK 2048 is outside a view of 2048 lines. -/
theorem test_seek_outOfView :
    let s := withStream .hl0 ⟨.locked, 2048, ⟨.empty, .empty⟩, .a, ⟨0, 1, 1, true⟩⟩ base
    (answer (run (.seek .hl0 2048) (asking .hl0 .seek (seekPayload 2048) s)) .hl0).take 1 = [0x15] := by decide +kernel

/-- 3.12: PORT_SET on a LOCKED stream. -/
theorem test_portSet_streamOpen :
    let s := withStream .hl0 ⟨.locked, 2048, ⟨.empty, .empty⟩, .a, ⟨0, 1, 1, true⟩⟩ base
    (answer (run (.portSet .hl0 0 0 0 0 0) (asking .hl0 .portSet [0, 0, 0, 0, 0] s)) .hl0).take 1 = [0x17] := by
  decide +kernel

/-- R60: view size 0 means 256. -/
theorem test_portSet_size :
    ((run (.portSet .hl0 3 0 0x1F 0 0) (asking .hl0 .portSet [3, 0, 0x1F, 0, 0] base)).streams.get .hl0).settings
      = ⟨0, 256, 3, false⟩ := by decide +kernel

/-! ### External memory -/

/-- R71: access k of line x gives bytes 2k and 2k + 1, low half first; the sixteenth fills the slot. -/
theorem test_accessCompletes_last :
    let s := reading (.slot .hl0 .a) 5 15 (withStream .hl0 (streamAt 5 (.waiting 5) .empty 0 256) base)
    let t := run (.accessCompletes 0xBEEF) s
    (t.streams.get .hl0).deliverySlot
      = .ready 5 .memory ((List.replicate 15 [(0x01 : Byte), 0x02]).flatten ++ [0xEF, 0xBE]) := by decide +kernel

/-- 3.11: the read of 8196 faults. -/
theorem test_readyLimit_faults :
    let s := reading (.slot .hl2 .a) 8196 3 (withStream .hl2 (streamAt 4 (.waiting 4) .empty 4 1) base)
    let t := run .readyLimitExceeded s
    (t.streams.get .hl2).deliverySlot = .faulted 4 ∧ t.xmc.faults = 1 ∧ t.xmc.lastFault = 8196 := by decide +kernel

/-- The set before grant 9 of the example in 4.4: HL0 (0, 0), HL1 (1, 8), HL2 (3, 8), the pointer at HL0. -/
def agingExample : Xmc :=
  ((Xmc.reset.putSlotRequest .hl0 .a (some ⟨1, 0, 0⟩)).putSlotRequest .hl1 .a (some ⟨2, 1, 8⟩)).putSlotRequest .hl2 .a
    (some ⟨3, 3, 8⟩)

/-- Grant 9: HL1 is granted, the pointer moves to it, HL0 has 1 pass and HL2 stays at 8. -/
theorem test_grant_aging :
    let x := { agingExample with pointer := .hl0 }.grant base.roles
    x.inFlight = some ⟨.slot .hl1 .a, 2, [], false⟩ ∧ x.pointer = .hl1
      ∧ x.slotRequest .hl0 .a = some ⟨1, 0, 1⟩ ∧ x.slotRequest .hl2 .a = some ⟨3, 3, 8⟩ := by decide +kernel

/-! ### Table and store -/

/-- The table of the example in 1.3, before its commit. -/
def commitExample : State :=
  withSession .hl0 [.remove 1, .add 2]
    (withGen 7 none (some 7) (base.putTable (tableOf [.live (fieldsOf 100 4 15 0) 3 false,
      .live (fieldsOf 200 2 2 4) 5 true, .staged (fieldsOf 200 4 6 6) [0, 1, 2, 3]])))

/-- 1.3: lookups before the commit. -/
theorem test_lookup_before :
    lookup commitExample.table 7 none 7 .hl1 201 = some (1, 5) ∧ lookup commitExample.table 7 none 7 .hl1 202 = none := by
  decide +kernel

/-- 1.3: the table of lookups after the commit. -/
theorem test_lookup_after :
    let t := commitExample.commitStep
    t.gen.current = 8 ∧ t.gen.superseded = some 7 ∧ lookup t.table 8 (some 7) 7 .hl1 201 = some (1, 5)
      ∧ lookup t.table 8 (some 7) 7 .hl1 202 = none ∧ lookup t.table 8 (some 7) 8 .hl2 202 = some (2, 8)
      ∧ lookup t.table 8 (some 7) 8 .hl0 201 = none := by decide +kernel

/-- R180: the record of slot 1 of that table. -/
theorem test_tableRead_record :
    answer (run (.tableRead .hl3 1) (asking .hl3 .tableRead [1] commitExample)) .hl3
      = [0x00, 1, 2, 0x10, 0, 200, 0, 0, 2, 2, 4, 0, 5, 0, 1, 0, 0, 1, 0, 0x16] := by decide +kernel

/-- 2.9: the list after session 2's first ADD, and the NO_SPACE of its third. -/
theorem test_add_allocates :
    let s := withSession .hl2 [] (base.putStore ⟨[⟨128, 64⟩, ⟨320, 64⟩, ⟨2024, 24⟩], [], 0⟩)
    let t := run (.add .hl2 9 500 30 1 0) (asking .hl2 .add (addPayload 9 500 30 1 0) s)
    t.store.freeList = [⟨158, 34⟩, ⟨320, 64⟩, ⟨2024, 24⟩] ∧ (answer t .hl2).take 2 = [0x00, 0]
      ∧ t.ops = [.add 0] := by decide +kernel

theorem test_add_noSpace :
    let s := withSession .hl2 [] (base.putStore ⟨[⟨158, 34⟩, ⟨360, 24⟩, ⟨2024, 24⟩], [], 0⟩)
    let t := run (.add .hl2 9 500 50 1 0) (asking .hl2 .add (addPayload 9 500 50 1 0) s)
    answer t .hl2 = [0x41, 0xBF] ∧ t.table = s.table := by decide +kernel

/-- 2.9: the ABORT of session 2 merges both extents. -/
theorem test_abort_merges :
    let s := withSession .hl2 [.add 0, .add 1] ((base.putTable (tableOf [.staged (fieldsOf 0 30 1 128) [],
      .staged (fieldsOf 50 40 1 320) []])).putStore ⟨[⟨158, 34⟩, ⟨360, 24⟩, ⟨2024, 24⟩], [], 0⟩)
    (run (.abort .hl2) (asking .hl2 .abort [] s)).store.freeList = [⟨128, 64⟩, ⟨320, 64⟩, ⟨2024, 24⟩] := by decide +kernel

/-- 2.9: the commit of session 3 merges with both neighbours. -/
theorem test_commit_merges :
    let s := withSession .hl2 [.remove 0, .remove 1] ((base.putTable (tableOf [.live (fieldsOf 0 64 1 192) 1 true,
      .live (fieldsOf 64 64 1 256) 1 true])).putStore ⟨[⟨128, 64⟩, ⟨320, 64⟩, ⟨2024, 24⟩], [], 0⟩)
    let t := run (.commit .hl2) (asking .hl2 .commit [] s)
    t.store.freeList = [⟨128, 256⟩, ⟨2024, 24⟩] ∧ t.gen.current = 2 ∧ (answer t .hl2).take 3 = [0x00, 2, 0] := by
  decide +kernel

/-- R120, R31: a FILL's first byte goes to offset 0 of the entry's line + index. -/
theorem test_fill_writes :
    let s := withSession .hl0 [.add 0] (base.putTable (tableOf [.staged (fieldsOf 0 2 1 6) []]))
    let data := (0x77 : Byte) :: List.replicate 31 0x55
    let t := run (.fill .hl0 0 1 data) (asking .hl0 .fill (fillPayload 0 1 data) s)
    t.store.byte 7 0 = 0x77 ∧ t.store.byte 7 31 = 0x55 ∧ answer t .hl0 = [0x00, 1, 0xFF] := by decide +kernel

/-- R126: a COMMIT with an incomplete fill map names the slot and the fill count. -/
theorem test_commit_incomplete :
    let s := withSession .hl0 [.add 0] (base.putTable (tableOf [.staged (fieldsOf 0 2 1 6) [1]]))
    (answer (run (.commit .hl0) (asking .hl0 .commit [] s)) .hl0).take 3 = [0x47, 0, 1] := by decide +kernel

/-- R122: a REMOVE of a LIVE entry marks it; R123: of a FREE slot it is refused. -/
theorem test_remove_marks :
    let s := withSession .hl0 [] (base.putTable (tableOf [.live (fieldsOf 0 2 1 6) 1 false]))
    let t := run (.remove .hl0 0) (asking .hl0 .remove [0] s)
    (entryAt t.table 0).isMarked = true ∧ t.ops = [.remove 0] := by decide +kernel

theorem test_remove_notLive :
    answer (run (.remove .hl0 5) (asking .hl0 .remove [5] (withSession .hl0 [] base))) .hl0 = [0x44, 0xBC] := by
  decide +kernel

/-- R110, R111: the second claimant waits at place 1. -/
theorem test_claim_queues :
    let t := run (.claim .hl3 1) (asking .hl3 .claim [1] (withSession .hl0 [] base))
    answer t .hl3 = [0x31, 1, 0xCE] ∧ t.edit.claimQueue = [.hl3] := by decide +kernel

theorem test_claim_opens :
    (run (.claim .hl1 0) (asking .hl1 .claim [0] base)).edit = ⟨some ⟨.hl1, ⟨0, 20⟩, []⟩, []⟩ := by decide +kernel

/-! ### Loads, resets, notices, time -/

/-- 7.11: at the end of the device reset with straps 1, 1 the header read of line 524160 is in flight. -/
theorem test_resetEnd_header :
    (run (.resetEnd 3) State.reset).xmc.inFlight = some ⟨.loader, 524160, [], false⟩ := by decide +kernel

/-- R26, R103, R151: a RELOAD restarts the load. -/
theorem test_reload_restarts :
    let t := run (.reload .hl0) (asking .hl0 .reload [] (withSession .hl0 [] commitExample))
    t.loader.ready = false ∧ t.gen.current = 1 ∧ t.store.freeList = [⟨0, 2048⟩] ∧ t.edit = ⟨none, []⟩ := by decide +kernel

/-- R153: a device reset returns to LOADING with full-range views. -/
theorem test_deviceReset_values :
    let t := run .deviceReset linkExample
    t.loader.ready = false ∧ (t.streams.get .hl1).settings = ⟨0, 256, 1, true⟩ ∧ (t.links.get .hl1).errors = 0 := by
  decide +kernel

/-- 8.6: with 8 notices queued the STREAM_STALE is dropped, the flag set and the line asserted; the stream is closed at 3900. -/
theorem test_drainExpiry_drops_notice :
    let s := ((withGen 6 (some 5) (some 5) base).putStream .hl1 (streamAt 3900 .empty .empty 0 256)).putNotice .hl1
      ⟨List.replicate 8 (.sessionGranted 1), false, 6⟩
    let t := run .drainExpiry s
    (t.streams.get .hl1).state = .stale 3900 ∧ (t.notices.get .hl1).queue.length = 8
      ∧ (t.notices.get .hl1).overflow = true ∧ t.attention .hl1 = true ∧ t.gen.superseded = none := by decide +kernel

/-- 8.6: the last notice is returned with the flag, which then clears; the line falls. -/
theorem test_noticeTake_last :
    let s := base.putNotice .hl3 ⟨[.committed 6 100 140], true, 0⟩
    let t := run (.noticeTake .hl3) (asking .hl3 .noticeTake [] s)
    (answer t .hl3).take 12 = [0x00, 1, 6, 0, 100, 0, 0, 140, 0, 0, 0, 1] ∧ t.attention .hl3 = false
      ∧ s.attention .hl3 = true := by decide +kernel

/-- R98, R115: one tick. -/
theorem test_tick_advances :
    let t := run .timebaseTick (withSession .hl0 [] base)
    t.edit.session = some ⟨.hl0, ⟨8, 20⟩, []⟩ := by decide +kernel

/-- R116: at 200 ticks of a 200 ms limit the session expires. -/
theorem test_sessionExpiry :
    let t := run .sessionExpiry (base.putEdit ⟨some ⟨.hl0, ⟨200, 20⟩, []⟩, [.hl2]⟩)
    t.edit = ⟨some ⟨.hl2, ⟨0, 20⟩, []⟩, []⟩ ∧ (t.notices.get .hl0).queue = [.sessionExpired 1]
      ∧ (t.notices.get .hl2).queue = [.sessionGranted 1] := by decide +kernel

/-- The table gives a command no bits. -/
theorem test_decodeTableWord : decodeTableWord 8 0x02 = none := rfl

/-! ### Witnesses: for each statement with hypotheses, states that meet them, clause by clause -/

/-- The entries of a table are those written out and FREE ones. -/
theorem mem_tableOf {entries : List Entry} {e : Entry} (h : e ∈ tableOf entries) : e ∈ entries ∨ e = .free := by
  rcases List.mem_append.mp h with h | h
  · exact .inl h
  · exact .inr (List.eq_of_mem_replicate h)

/-- Every port closed and unbound, settings of the reset, all counters 0. -/
theorem base_generationsSound : base.generationsSound :=
  ⟨by unfold isGeneration; decide, (by intro g h; cases h), (by intro p g h; cases p <;> cases h), (by intro g h; cases h), rfl,
    (by intro _ e he; rw [List.eq_of_mem_replicate he]; rfl),
    (by intro e he f b h; rw [List.eq_of_mem_replicate he] at h; simp at h)⟩

theorem base_claimsSound : base.claimsSound :=
  ⟨by decide, (by intro ses h; cases h), (by intro _; rfl)⟩

theorem base_entryAt (i : Nat) : entryAt base.table i = .free := by
  by_cases h : i < base.table.length
  · exact List.eq_of_mem_replicate (entryAt_mem h)
  · exact entryAt_of_length_le (by omega)

theorem base_opsSound : base.opsSound :=
  ⟨by decide, by decide, by decide, fun i => by rw [base_entryAt]; simp [State.ops, base, State.reset, Entry.isStaged],
    fun i => by rw [base_entryAt]; simp [State.ops, base, State.reset, Entry.isMarked],
    fun f m h => absurd (List.eq_of_mem_replicate h) (by simp)⟩

theorem base_loadSound : base.loadSound :=
  ⟨(by intro h; cases h), (by intro _; rfl), (by intro h; cases h), (by intro h; cases h), (by intro h; cases h),
    ⟨rfl, by rintro l ⟨r, hr, -⟩; cases hr⟩,
    (by rintro (h | ⟨d, c, i, h⟩) <;> cases h), (by intro d c i h; cases h)⟩

theorem base_streamsSound : base.streamsSound :=
  ⟨(by intro p; cases p <;> simp [base, State.reset, PerPort.get, StreamUnit.sound, StreamUnit.reset, Settings.sound]),
    (by intro p; cases p <;> simp [base, State.reset, PerPort.get, Settings.sound]), (by intro d h; cases h)⟩

theorem base_outstandingSound : base.outstandingSound := by
  refine ⟨fun _ q => by rcases q with ⟨p, k⟩ | _ <;> first | (cases p <;> cases k <;> rfl) | rfl, fun p k => ?_⟩
  cases p <;> cases k <;> exact ⟨rfl, by rintro l ⟨r, hr, -⟩; cases hr⟩

theorem base_storeSound : base.storeSound := by
  have he : entryExtents base.table = [] := by decide +kernel
  refine ⟨Nat.le_of_ble_eq_true rfl, ?_, ?_, ?_⟩
  · rw [he]
    intro x hx
    simp [base, State.reset] at hx
    subst hx
    decide
  · intro e h f hf
    rw [List.eq_of_mem_replicate h] at hf
    cases hf
  · intro n hn
    rw [he]
    simp [base, State.reset, Extent.holds] at hn ⊢
    omega

theorem base_contentSound : base.contentSound := ⟨rfl, (by intro r h; cases h)⟩

theorem base_noticesSound : base.noticesSound := fun p => by
  cases p <;> simp [base, State.reset, PerPort.get, NoticeUnit.sound]

theorem base_countersSound : base.countersSound := ⟨by decide, fun p => by cases p <;> decide⟩

theorem base_rangesSound : base.rangesSound :=
  ⟨(by intro p g _ i j _ _ f f' h; rw [base_entryAt] at h; cases h),
    (by intro i j _ _ f f' h; rw [base_entryAt] at h; cases h)⟩

/-- A busy state: HL1 streams bound to S = 7 while C is 8, and its read is in flight. -/
def drainExample : State :=
  reading (.slot .hl1 .a) 5 15 (withGen 8 (some 7) (some 7)
    (withStream .hl1 (streamAt 5 (.waiting 5) .empty 0 256) (base.putTable (tableOf [.retiring (fieldsOf 40 2 2 0) 5]))))

theorem drainExample_generationsSound : drainExample.generationsSound :=
  ⟨by unfold isGeneration; decide, (by intro g h; cases h; unfold isGeneration; decide),
    (by intro p g h; cases p <;> cases h; exact .inr rfl), (by intro g h; cases h; exact ⟨.hl1, rfl⟩), rfl,
    (by intro h; cases h),
    (by
      intro e he f b h
      rcases mem_tableOf he with he | rfl
      · simp at he
        subst he
        simp at h
        obtain ⟨-, rfl⟩ := h
        unfold isGeneration
        decide
      · simp at h)⟩

/-- The same with HL1 bound to C and no drain. -/
theorem commitExample_generationsSound : commitExample.generationsSound :=
  ⟨by unfold isGeneration; decide, (by intro g h; cases h), (by intro p g h; cases p <;> cases h; exact .inl rfl),
    (by intro g h; cases h), rfl, (by intro _; decide +kernel),
    (by
      intro e he f b h
      rcases mem_tableOf he with he | rfl
      · simp at he
        rcases he with rfl | rfl | rfl <;> simp at h
        all_goals
          obtain ⟨-, rfl⟩ := h
          unfold isGeneration
          decide
      · simp at h)⟩

theorem witness_StepTakesFrontCommand : ({ base with pending := [.deviceReset] } : State).pending = .deviceReset :: [] := rfl

theorem witness_CommandsCompleteInsideTheStore :
    tableInStore commitExample.table = true ∧ commitExample.loaderInStore = true := by decide +kernel

theorem witness_CorrectFrameIsAccepted :
    (Instr.fill .hl2 63 1 (List.replicate 32 0xFF)).wellFormed = true
      ∧ requestOf (.fill .hl2 63 1 (List.replicate 32 0xFF)) = some (.hl2, .fill, 63 :: 1 :: List.replicate 32 0xFF)
      ∧ requestOf (.seek .hl0 0xFFFFFF) = some (.hl0, .seek, [0xFF, 0xFF, 0xFF])
      ∧ base.inReset = false ∧ (base.links.get .hl2).phase = .idle ∧ (base.links.get .hl2).selected = false := by
  decide +kernel

/-- Counts and codes on both sides of each check. -/
theorem witness_FrameChecksInOrder :
    checkFrame 1 0 [1] = .badFrame ∧ checkFrame 2 1 [2] = .badFrame ∧ checkFrame 2 0 [0] = .badKind
      ∧ checkFrame 2 0 [0x0F] = .badKind ∧ checkFrame 3 0 [0x0E] = .badFrame ∧ checkFrame 2 0 [0x0E] = .correct .portReset []
      ∧ checkFrame 5 0 [1, 2, 3, 4] = .correct .seek [2, 3, 4] := by decide +kernel

theorem witness_LinkAnswersWithoutAnOwner :
    (sending .hl1 [] linkExample).frameAt .hl1 = some .badFrame
      ∧ (sending .hl1 [0x11, 0xEF] linkExample).frameAt .hl1 = some .badKind
      ∧ (let s := asking .hl0 .abort [] (run (.resetEnd 3) State.reset)
        requestOf (.abort .hl0) = some (.hl0, .abort, []) ∧ s.arrived .hl0 .abort [] ∧ s.loader.ready = false) := by
  unfold State.arrived; decide +kernel

theorem witness_SelectAssertedStartsRequest :
    ((base.links.get .hl0).phase = .idle ∧ (base.links.get .hl0).selected = false ∧ base.inReset = false)
      ∧ ((State.reset.links.get .hl0).phase = .idle ∧ (State.reset.links.get .hl0).selected = false
        ∧ State.reset.inReset = true)
      ∧ ((base.putLink .hl0 ⟨.idle, 0, true, none⟩).links.get .hl0).selected = true := by decide +kernel

/-- The 36th byte is kept and the 37th is not; the last response byte and one before it; a link that is DONE. -/
theorem witness_BytesOnALink :
    (((base.putLink .hl0 ⟨.request 35 0 [], 0, true, none⟩).links.get .hl0).phase = .request 35 0 [])
      ∧ (((base.putLink .hl0 ⟨.request 36 0 [], 0, true, none⟩).links.get .hl0).phase = .request 36 0 [])
      ∧ (((base.putLink .hl0 ⟨.response [1], 0, true, none⟩).links.get .hl0).phase = .response [1])
      ∧ (((base.putLink .hl0 ⟨.response [1, 2], 0, true, none⟩).links.get .hl0).phase = .response [1, 2])
      ∧ ((base.putLink .hl0 ⟨.done, 0, true, none⟩).links.get .hl0).phase = .done
      ∧ base.inReset = false ∧ State.reset.inReset = true ∧ (base.links.get .hl0).phase = .idle := by
  decide +kernel

theorem witness_SelectReleaseByPhase :
    ((sending .hl1 [] linkExample).links.get .hl1).phase = .request 0 0 []
      ∧ ((base.putLink .hl0 ⟨.response [], 255, true, none⟩).links.get .hl0).phase = .response []
      ∧ ((base.putLink .hl0 ⟨.done, 255, true, none⟩).links.get .hl0).phase = .done
      ∧ (base.links.get .hl0).phase = .idle := by decide +kernel

/-- A SEEK to the first line outside the view, and a NEXT in each state that delivers nothing. -/
theorem witness_RefusedFetchesChangeNothing :
    (let s := asking .hl2 .seek (seekPayload 2048) (withStream .hl2 (streamAt 4 .empty .empty 4 1) base);
      s.loader.ready = true ∧ s.arrived .hl2 .seek (seekPayload 2048)
        ∧ (s.streams.get .hl2).settings.viewSize * 2048 ≤ (2048 : BitVec 24).toNat)
      ∧ (let s := asking .hl0 .next [] base;
        s.arrived .hl0 .next [] ∧ (s.streams.get .hl0).state = .idle)
      ∧ (let s := asking .hl0 .next [] (withStream .hl0 ⟨.locked, 2048, ⟨.empty, .empty⟩, .a, ⟨0, 1, 1, true⟩⟩ base);
        s.arrived .hl0 .next [] ∧ (s.streams.get .hl0).state = .locked)
      ∧ (let s := asking .hl0 .next [] (withStream .hl0 ⟨.stale 9, 0, ⟨.empty, .empty⟩, .a, ⟨0, 1, 1, true⟩⟩ base);
        s.arrived .hl0 .next [] ∧ (s.streams.get .hl0).state = .stale 9)
      ∧ (let s := asking .hl1 .next [] drainExample;
        s.arrived .hl1 .next [] ∧ (s.streams.get .hl1).state = .streaming ∧ tableInStore s.table = true
          ∧ (s.streams.get .hl1).deliverySlot = .waiting 5) := by
  unfold State.arrived; decide +kernel

/-- A SEEK to the last line of the view, during a drain. -/
theorem witness_SeekOpensStream :
    let s := asking .hl1 .seek (seekPayload 524287) drainExample
    s.arrived .hl1 .seek (seekPayload 524287) ∧ s.loader.ready = true
      ∧ (524287 : BitVec 24).toNat < (s.streams.get .hl1).settings.viewLines ∧ tableInStore s.table = true := by
  unfold State.arrived; decide +kernel

/-- HL1 is the last port bound to S; HL0 is not bound to it. -/
theorem witness_SeekOfLastPortEndsDrain :
    (∃ s : State, s.arrived .hl1 .seek (seekPayload 9) ∧ s.loader.ready = true ∧ tableInStore s.table = true
      ∧ (9 : BitVec 24).toNat < (s.streams.get .hl1).settings.viewLines ∧ s.generationsSound ∧ s.lastOnSuperseded .hl1)
    ∧ (∃ s : State, s.arrived .hl0 .seek (seekPayload 9) ∧ s.loader.ready = true ∧ tableInStore s.table = true
      ∧ (9 : BitVec 24).toNat < (s.streams.get .hl0).settings.viewLines ∧ s.generationsSound ∧ ¬ s.lastOnSuperseded .hl0) := by
  refine ⟨⟨asking .hl1 .seek (seekPayload 9) drainExample, by unfold State.arrived; decide +kernel, by decide +kernel,
      by decide +kernel, by decide +kernel, ?_, 7, rfl, rfl, ?_⟩,
    ⟨asking .hl0 .seek (seekPayload 9) drainExample, by unfold State.arrived; decide +kernel, by decide +kernel,
      by decide +kernel, by decide +kernel, ?_, ?_⟩⟩
  · exact ⟨drainExample_generationsSound.1, drainExample_generationsSound.2, drainExample_generationsSound.3,
      drainExample_generationsSound.4, drainExample_generationsSound.5, drainExample_generationsSound.6,
      drainExample_generationsSound.7⟩
  · intro q hq h; cases q <;> first | exact hq rfl | cases h
  · exact ⟨drainExample_generationsSound.1, drainExample_generationsSound.2, drainExample_generationsSound.3,
      drainExample_generationsSound.4, drainExample_generationsSound.5, drainExample_generationsSound.6,
      drainExample_generationsSound.7⟩
  · rintro ⟨g, hg, hb, -⟩; cases hb

/-- A NEXT on the line two before the end of the view, with the ahead slot EMPTY. -/
def s2045 : State := asking .hl0 .next [] (withStream .hl0 (streamAt 2045 (.ready 2045 .memory []) .empty 0 1) base)

/-- At the last line of the view, and with the ahead slot EMPTY and not EMPTY before it. -/
theorem witness_NextDeliversReadyLine :
    (let s := asking .hl0 .next [] (withStream .hl0 (streamAt 2047 (.ready 2047 .overlay []) .empty 0 1) base);
      s.arrived .hl0 .next [] ∧ s.loader.ready = true ∧ (s.streams.get .hl0).state = .streaming
        ∧ tableInStore s.table = true ∧ (s.streams.get .hl0).deliverySlot = .ready 2047 .overlay []
        ∧ (s.streams.get .hl0).counter + 1 = (s.streams.get .hl0).settings.viewLines)
      ∧ (let s := asking .hl0 .next [] (withStream .hl0 (streamAt 2046 (.ready 2046 .memory []) (.waiting 2047) 0 1) base);
        s.arrived .hl0 .next [] ∧ s.loader.ready = true ∧ (s.streams.get .hl0).state = .streaming
          ∧ tableInStore s.table = true ∧ (s.streams.get .hl0).deliverySlot = .ready 2046 .memory []
          ∧ (s.streams.get .hl0).counter + 1 ≠ (s.streams.get .hl0).settings.viewLines)
      ∧ (s2045.arrived .hl0 .next [] ∧ (s2045.streams.get .hl0).aheadSlot = .empty
          ∧ (s2045.streams.get .hl0).counter + 2 < (s2045.streams.get .hl0).settings.viewLines) := by
  unfold State.arrived; decide +kernel

/-- A FAULTED slot; an EMPTY one that misses, with the controller idle and with a read in flight; and an EMPTY one that hits. -/
theorem witness_NextOnUnreadySlot :
    (let s := asking .hl0 .next [] (withStream .hl0 (streamAt 4 (.faulted 4) (.waiting 5) 4 1) base);
      s.arrived .hl0 .next [] ∧ s.loader.ready = true ∧ (s.streams.get .hl0).state = .streaming
        ∧ tableInStore s.table = true ∧ (s.streams.get .hl0).deliverySlot = .faulted 4)
      ∧ (let s := asking .hl0 .next [] (withStream .hl0 (streamAt 4 .empty (.waiting 5) 4 1) base);
        s.arrived .hl0 .next [] ∧ (s.streams.get .hl0).deliverySlot = .empty
          ∧ s.slotByLookup .hl0 (s.boundGeneration .hl0) (s.streams.get .hl0).counter
            = .waiting (s.streams.get .hl0).counter
          ∧ s.xmc.inFlight = none ∧ ∀ q ∈ allRequesters, s.xmc.requestOf q = none)
      ∧ (let s := asking .hl0 .next [] (withStream .hl0 (streamAt 4 .empty .empty 4 1) drainExample);
        s.arrived .hl0 .next [] ∧ s.xmc.inFlight ≠ none
          ∧ s.slotByLookup .hl0 (s.boundGeneration .hl0) (s.streams.get .hl0).counter
            = .waiting (s.streams.get .hl0).counter) := by
  unfold State.arrived; decide +kernel

/-- HL1 at line 200, which slot 1 of 1.3 covers, with its delivery slot EMPTY. -/
theorem witness_NextOnUnreadySlot_hit :
    let s := asking .hl1 .next [] (withStream .hl1 (streamAt 200 .empty .empty 0 1) commitExample)
    (s.arrived .hl1 .next [] ∧ s.loader.ready = true ∧ (s.streams.get .hl1).state = .streaming
      ∧ tableInStore s.table = true ∧ (s.streams.get .hl1).deliverySlot = .empty)
      ∧ s.slotByLookup .hl1 (s.boundGeneration .hl1) (s.streams.get .hl1).counter
        = .ready (s.streams.get .hl1).counter .overlay (s.store.readLine 4) :=
  ⟨by unfold State.arrived; decide +kernel, rfl⟩

/-- Each clause of PORT_SET, the last at the greatest values it accepts. -/
theorem witness_PortSetChecksThenApplies :
    (let s := asking .hl0 .portSet [3, 1, 31, 255, 1] (run (.resetEnd 0) State.reset);
      s.arrived .hl0 .portSet [3, 1, 31, 255, 1] ∧ s.loader.ready = false)
      ∧ (let s := asking .hl1 .portSet [3, 1, 31, 255, 1] drainExample;
        s.arrived .hl1 .portSet [3, 1, 31, 255, 1] ∧ s.loader.ready = true ∧ (s.streams.get .hl1).state = .streaming)
      ∧ (let s := asking .hl0 .portSet [3, 1, 31, 1, 0] base;
        s.arrived .hl0 .portSet [3, 1, 31, 1, 0] ∧ s.loader.ready = true ∧ (s.streams.get .hl0).state = .idle)
      ∧ (let s := asking .hl0 .portSet [3, 1, 31, 255, 1] base;
        s.arrived .hl0 .portSet [3, 1, 31, 255, 1] ∧ s.loader.ready = true ∧ (s.streams.get .hl0).state = .idle) := by
  unfold State.arrived; decide +kernel

/-- The loader's request, a port's and an ahead slot's request chosen. -/
theorem witness_GrantChoosesAndStartsTheRead :
    agingExample.choose base.roles = some (.slot .hl0 .a) ∧ agingExample.requestOf (.slot .hl0 .a) = some ⟨1, 0, 0⟩
      ∧ ({ agingExample with loaderRequest := some ⟨9, 0, 0⟩ } : Xmc).choose base.roles = some .loader
      ∧ (Xmc.reset.putSlotRequest .hl2 .b (some ⟨7, 3, 0⟩)).choose base.roles = some (.slot .hl2 .b)
      ∧ (∀ q ∈ allRequesters, Xmc.reset.requestOf q = none)
      ∧ drainExample.xmc.inFlight = some ⟨.slot .hl1 .a, 5, List.replicate 15 0x0201, false⟩
      ∧ agingExample.inFlight = none ∧ agingExample.requestOf (.slot .hl2 .a) ≠ none := by decide +kernel

/-- Access 2 of line 5 is under way at byte address 5 × 32 + 4 (R71), and released before it begins and after a completion
(R189). -/
theorem test_access_released_between :
    (let s := reading (.slot .hl1 .a) 5 2 drainExample;
    s.memorySelected .underWay = true ∧ s.memoryAddress .underWay = some 164 ∧ s.memorySelected .between = false) := by
  decide +kernel

theorem witness_AccessesFillTheLine :
    base.xmc.inFlight = none ∧ State.reset.inReset = true ∧ drainExample.inReset = false
      ∧ (let s := reading (.slot .hl1 .a) 5 14 drainExample;
        s.xmc.inFlight = some ⟨.slot .hl1 .a, 5, List.replicate 14 0x0201, false⟩)
      ∧ drainExample.xmc.inFlight = some ⟨.slot .hl1 .a, 5, List.replicate 15 0x0201, false⟩
      ∧ (drainExample.streams.get .hl1).slots.get .a = .waiting 5 := by decide +kernel

theorem witness_FaultedAndOrphanedReadsEnd :
    drainExample.xmc.inFlight = some ⟨.slot .hl1 .a, 5, List.replicate 15 0x0201, false⟩
      ∧ (drainExample.streams.get .hl1).slots.get .a = .waiting 5
      ∧ (base.putXmc { Xmc.reset with inFlight := some ⟨.slot .hl1 .a, 5, List.replicate 15 0, true⟩ }).xmc.inFlight
        = some ⟨.slot .hl1 .a, 5, List.replicate 15 0, true⟩ := by decide +kernel

/-- The last line of a range hits at the same distance; the line after it misses. -/
theorem witness_LookupFindsVisibleCoveringEntry :
    lookup commitExample.table 7 none 7 .hl1 201 = some (1, 4 + 1)
      ∧ (entryAt commitExample.table 1).visible? 7 none 7 .hl1 = some (fieldsOf 200 2 2 4)
      ∧ lookup commitExample.table 7 none 7 .hl1 202 = none := by decide +kernel

theorem witness_CommitStepKeepsBoundView :
    commitExample.generationsSound ∧ commitExample.gen.superseded = none
      ∧ commitExample.gen.bindings.get .hl1 = some commitExample.gen.current :=
  ⟨commitExample_generationsSound, rfl, rfl⟩

/-- Line 203, the last of slot 2's range, answers differently after the commit of 1.3. -/
theorem witness_ChangedLinesLieInCommittedSpan :
    let s := commitExample
    s.gen.superseded = none ∧ 203 < (s.streams.get .hl1).settings.viewLines
      ∧ lookup s.commitStep.table s.commitStep.gen.current s.commitStep.gen.superseded s.commitStep.gen.current .hl1
          ((s.streams.get .hl1).settings.physical 203)
        ≠ lookup s.table s.gen.current s.gen.superseded s.gen.current .hl1 ((s.streams.get .hl1).settings.physical 203) := by
  decide +kernel

theorem witness_TableReadReportsTheSlot :
    (asking .hl0 .tableRead [64] commitExample).arrived .hl0 .tableRead [64]
      ∧ (asking .hl0 .tableRead [63] commitExample).arrived .hl0 .tableRead [63] := by
  unfold State.arrived; decide +kernel

theorem witness_StatusReportsEveryField : (asking .hl0 .status [] commitExample).arrived .hl0 .status [] := by
  unfold State.arrived; decide +kernel

theorem witness_NoticeTakeReturnsTheHead :
    (let s := asking .hl0 .noticeTake [] base;
      s.arrived .hl0 .noticeTake [] ∧ (s.notices.get .hl0).queue = [])
      ∧ (let s := asking .hl3 .noticeTake [] (base.putNotice .hl3 ⟨[.sessionGranted 1], true, 0⟩);
        s.arrived .hl3 .noticeTake [] ∧ (s.notices.get .hl3).queue = .sessionGranted 1 :: []) := by
  unfold State.arrived; decide +kernel

theorem witness_EditFromNonOwnerIsRefused :
    let s := asking .hl1 .commit [] commitExample
    requestOf (.commit .hl1) = some (.hl1, .commit, []) ∧ s.arrived .hl1 .commit [] ∧ s.loader.ready = true
      ∧ s.isOwner .hl1 = false := by
  unfold State.arrived; decide +kernel

/-- No session; another owner with the port queued and not queued; the owner. -/
theorem witness_ClaimOpensOrQueues :
    (let s := asking .hl1 .claim [1] base;
      s.arrived .hl1 .claim [1] ∧ s.loader.ready = true ∧ s.edit.session = none)
      ∧ (let s := asking .hl1 .claim [2] base;
        s.arrived .hl1 .claim [2] ∧ s.edit.session = none)
      ∧ (let s := asking .hl1 .claim [1] (base.putEdit ⟨some ⟨.hl0, ⟨7, 20⟩, []⟩, [.hl2, .hl1]⟩);
        s.arrived .hl1 .claim [1] ∧ s.edit.session = some ⟨.hl0, ⟨7, 20⟩, []⟩ ∧ s.edit.claimQueue = [.hl2] ++ .hl1 :: [])
      ∧ (let s := asking .hl1 .claim [1] (withSession .hl0 [] base);
        s.arrived .hl1 .claim [1] ∧ s.edit.session = some ⟨.hl0, ⟨7, 20⟩, []⟩ ∧ Port.hl1 ∉ s.edit.claimQueue)
      ∧ (let s := asking .hl1 .claim [0] (withSession .hl0 [] base);
        s.arrived .hl1 .claim [0] ∧ s.edit.session = some ⟨.hl0, ⟨7, 20⟩, []⟩)
      ∧ (let s := asking .hl0 .claim [2] (withSession .hl0 [] base);
        s.arrived .hl0 .claim [2] ∧ s.edit.session = some ⟨.hl0, ⟨7, 20⟩, []⟩) := by
  unfold State.arrived; decide +kernel

/-- An ADD of 64 lines that ends at the top of the physical range, with 15 ops in the list. -/
theorem witness_AddStagesEntry :
    let ops := (List.range 15).map Op.remove
    let s := asking .hl0 .add (addPayload 1 524224 64 15 0) (withSession .hl0 ops base)
    s.arrived .hl0 .add (addPayload 1 524224 64 15 0) ∧ s.loader.ready = true
      ∧ s.edit.session = some ⟨.hl0, ⟨7, 20⟩, ops⟩ ∧ (524224 : BitVec 24).toNat + (64 : Byte).toNat ≤ 524288
      ∧ ops.length < 16 ∧ overlaps s.table 524224 64 15 = false ∧ 0 < s.table.length ∧ entryAt s.table 0 = .free
      ∧ s.store.freeList = [] ++ ⟨0, 2048⟩ :: [] := by
  unfold State.arrived; decide +kernel

/-- Length 65; 16 ops; an overlap of one line; no FREE slot; no extent long enough. -/
theorem witness_AddRefusalsInOrder :
    (let s := asking .hl0 .add (addPayload 1 0 65 1 0) (withSession .hl0 [] base);
      s.arrived .hl0 .add (addPayload 1 0 65 1 0) ∧ s.loader.ready = true ∧ s.edit.session = some ⟨.hl0, ⟨7, 20⟩, []⟩)
      ∧ ((List.range 16).map Op.remove).length = 16
      ∧ (let s := asking .hl0 .add (addPayload 1 103 1 1 0) (withSession .hl0 [] commitExample);
        s.arrived .hl0 .add (addPayload 1 103 1 1 0) ∧ overlaps s.table 103 1 1 = true)
      ∧ (∀ e ∈ List.replicate 64 (Entry.live (fieldsOf 0 1 2 0) 1 false), e ≠ .free)
      ∧ (∀ x ∈ [(⟨158, 34⟩ : Extent), ⟨360, 24⟩], x.length < 35) := by
  unfold State.arrived; decide +kernel

theorem witness_FillWritesOneStoreLine :
    let data := List.replicate 32 (0x11 : Byte)
    let s := asking .hl0 .fill (fillPayload 2 3 data) commitExample
    (Instr.fill .hl0 2 3 data).wellFormed = true ∧ s.arrived .hl0 .fill (fillPayload 2 3 data) ∧ s.loader.ready = true
      ∧ s.edit.session = some ⟨.hl0, ⟨7, 20⟩, [.remove 1, .add 2]⟩
      ∧ entryAt s.table 2 = .staged (fieldsOf 200 4 6 6) [0, 1, 2, 3] ∧ tableInStore s.table = true := by
  unfold State.arrived; decide +kernel

/-- Slot 64 and slot 63, an index one too high, and a LIVE, a marked, and a FREE slot. -/
theorem witness_SlotRefusalsInOrder :
    (let s := asking .hl0 .fill (fillPayload 2 4 (List.replicate 32 0x11)) commitExample;
      s.arrived .hl0 .fill (fillPayload 2 4 (List.replicate 32 0x11))
        ∧ entryAt s.table 2 = .staged (fieldsOf 200 4 6 6) [0, 1, 2, 3])
      ∧ (let data := List.replicate 32 (0x11 : Byte);
        let s := asking .hl0 .fill (fillPayload 64 0 data) commitExample;
        s.arrived .hl0 .fill (fillPayload 64 0 data) ∧ s.loader.ready = true
          ∧ s.edit.session = some ⟨.hl0, ⟨7, 20⟩, [.remove 1, .add 2]⟩ ∧ tableInStore s.table = true)
      ∧ (entryAt commitExample.table 63).isStaged = false
      ∧ (let s := asking .hl0 .remove [1] commitExample;
        s.arrived .hl0 .remove [1] ∧ entryAt s.table 1 = .live (fieldsOf 200 2 2 4) 5 true)
      ∧ (let s := asking .hl0 .remove [63] commitExample;
        s.arrived .hl0 .remove [63] ∧ entryAt s.table 63 = .free) := by
  unfold State.arrived; decide +kernel

theorem witness_RemoveDiscardsOrMarks :
    (let s := asking .hl0 .remove [2] commitExample;
      s.arrived .hl0 .remove [2] ∧ s.loader.ready = true ∧ s.edit.session = some ⟨.hl0, ⟨7, 20⟩, [.remove 1, .add 2]⟩
        ∧ entryAt s.table 2 = .staged (fieldsOf 200 4 6 6) [0, 1, 2, 3])
      ∧ (let s := asking .hl0 .remove [0] commitExample;
        s.arrived .hl0 .remove [0] ∧ entryAt s.table 0 = .live (fieldsOf 100 4 15 0) 3 false) := by
  unfold State.arrived; decide +kernel

/-- One staged line whose content is written, so that its sum is known. -/
def oneLine (sum : BitVec 16) (fillMap : List Nat) : State :=
  withSession .hl0 [.remove 0, .add 1] (withGen 7 none (some 7)
    ((base.putTable (tableOf [.live (fieldsOf 100 4 15 0) 3 true,
      .staged { fieldsOf 200 1 6 6 with contentSum := sum } fillMap])).putStore
        ((⟨[⟨7, 2041⟩], [], 0⟩ : Store).writeLine 6 (List.replicate 32 1))))

/-- PRIOR_DRAINING, an incomplete map and a differing sum. -/
theorem witness_CommitRefusals :
    (let s := asking .hl0 .commit [] (withGen 8 (some 7) (some 7) (oneLine 0x1010 [0]));
      s.arrived .hl0 .commit [] ∧ s.gen.superseded = some 7 ∧ tableInStore s.table = true)
      ∧ (let s := asking .hl0 .commit [] (oneLine 0x1010 []);
        s.arrived .hl0 .commit [] ∧ s.loader.ready = true ∧ s.gen.superseded = none
          ∧ s.edit.session = some ⟨.hl0, ⟨7, 20⟩, [.remove 0] ++ .add 1 :: []⟩
          ∧ entryAt s.table 1 = .staged { fieldsOf 200 1 6 6 with contentSum := 0x1010 } [])
      ∧ (let s := asking .hl0 .commit [] (oneLine 0x1011 [0]);
        s.arrived .hl0 .commit [] ∧ s.store.contentSum 6 1 ≠ 0x1011) := by
  unfold State.arrived; decide +kernel

/-- An empty op list; a full commit with HL1 bound to C and with no port bound to it. -/
theorem witness_CommitAppliesTheOpList :
    (let s := asking .hl0 .commit [] (withSession .hl0 [] commitExample);
      s.arrived .hl0 .commit [] ∧ s.loader.ready = true ∧ s.edit.session = some ⟨.hl0, ⟨7, 20⟩, []⟩
        ∧ tableInStore s.table = true)
      ∧ (let s := asking .hl0 .commit [] (oneLine 0x1010 [0]);
        s.arrived .hl0 .commit [] ∧ s.loader.ready = true ∧ s.edit.session = some ⟨.hl0, ⟨7, 20⟩, [.remove 0, .add 1]⟩
          ∧ tableInStore s.table = true ∧ s.gen.superseded = none
          ∧ entryAt s.table 1 = .staged { fieldsOf 200 1 6 6 with contentSum := 0x1010 } [0]
          ∧ s.store.contentSum 6 1 = 0x1010 ∧ s.gen.bindings.get .hl1 = some s.gen.current)
      ∧ (let s := asking .hl0 .commit [] (withGen 65535 none none (oneLine 0x1010 [0]));
        s.arrived .hl0 .commit [] ∧ s.gen.superseded = none ∧ ∀ q ∈ allPorts, s.gen.bindings.get q ≠ some s.gen.current) := by
  unfold State.arrived; decide +kernel

/-- HL1 has clipped ranges of that commit; HL0's scope bit is in slot 0 only. -/
theorem witness_CommitNotifiesPorts :
    let s := asking .hl0 .commit [] (oneLine 0x1010 [0])
    s.arrived .hl0 .commit [] ∧ s.loader.ready = true ∧ tableInStore s.table = true ∧ s.gen.superseded = none
      ∧ checkOps s.table s.store [.remove 0, .add 1] = none
      ∧ changedRanges s.table .hl1 (s.streams.get .hl1).settings = [(100, 103), (200, 200)] := by
  unfold State.arrived; decide +kernel

theorem witness_AbortReleasesOrLeaves :
    (let s := asking .hl0 .abort [] commitExample;
      s.arrived .hl0 .abort [] ∧ s.loader.ready = true ∧ s.edit.session = some ⟨.hl0, ⟨7, 20⟩, [.remove 1, .add 2]⟩)
      ∧ (let s := asking .hl1 .abort [] (base.putEdit ⟨some ⟨.hl0, ⟨7, 20⟩, []⟩, [.hl2, .hl1]⟩);
        s.arrived .hl1 .abort [] ∧ s.isOwner .hl1 = false ∧ s.edit.claimQueue = [.hl2] ++ .hl1 :: [])
      ∧ (let s := asking .hl1 .abort [] base;
        s.arrived .hl1 .abort [] ∧ Port.hl1 ∉ s.edit.claimQueue ∧ s.edit.session = none) := by
  unfold State.arrived; decide +kernel

/-- With no read in flight, and with one. -/
theorem witness_ReloadStartsALoad :
    (let s := asking .hl0 .reload [] commitExample;
      s.arrived .hl0 .reload [] ∧ s.loader.ready = true ∧ s.isOwner .hl0 = true ∧ s.xmc.inFlight = none)
      ∧ (let s := asking .hl0 .reload [] (withSession .hl0 [] drainExample);
        s.arrived .hl0 .reload [] ∧ s.loader.ready = true ∧ s.isOwner .hl0 = true ∧ s.xmc.inFlight ≠ none) := by
  unfold State.arrived; decide +kernel

/-- The owner with a queued successor, not bound to S; and a port outside the session, the last port bound to S. -/
theorem witness_PortResetReturnsOnePort :
    (∃ s : State, s.arrived .hl0 .portReset [] ∧ s.claimsSound ∧ s.isOwner .hl0 = true ∧ ¬ s.lastOnSuperseded .hl0)
      ∧ ∃ s : State, s.arrived .hl1 .portReset [] ∧ s.claimsSound ∧ s.edit.session = none ∧ s.lastOnSuperseded .hl1 :=
  ⟨⟨asking .hl0 .portReset [] (base.putEdit ⟨some ⟨.hl0, ⟨7, 20⟩, []⟩, [.hl2]⟩), by unfold State.arrived; decide +kernel,
      ⟨by decide +kernel, (by intro ses h; cases h; decide +kernel), (by intro h; cases h)⟩, by decide +kernel,
      (by rintro ⟨g, hg, -⟩; cases hg)⟩,
    ⟨asking .hl1 .portReset [] drainExample, by unfold State.arrived; decide +kernel,
      ⟨by decide +kernel, (by intro ses h; cases h), (by intro _; rfl)⟩, rfl, 7, rfl, rfl,
      (by intro q hq h; cases q <;> first | exact hq rfl | cases h)⟩⟩

theorem witness_DeviceResetAndItsEnd : State.reset.inReset = true ∧ State.reset.xmc = Xmc.reset := ⟨rfl, rfl⟩

/-- Both timers one tick below their limits. -/
theorem witness_TickAdvancesRunningTimers :
    let s := (base.putGen ⟨8, some 7, ⟨some 7, none, none, none⟩, some ⟨49, 5⟩⟩).putEdit ⟨some ⟨.hl0, ⟨199, 20⟩, []⟩, []⟩
    (∀ d, s.gen.drainTimer = some d → d.elapsed < d.limit * 10)
      ∧ ∀ ses, s.edit.session = some ses → ses.idleTimer.elapsed < ses.idleTimer.limit * 10 := by
  refine ⟨?_, ?_⟩
  · intro d h; cases h; decide
  · intro ses h; cases h; decide

/-- The drain timer exactly at its limit. -/
theorem witness_DrainExpiryClosesStreams :
    drainExample.gen.superseded = some 7 ∧ drainExample.gen.drainTimer = some ⟨50, 5⟩
      ∧ drainExample.gen.bindings.get .hl1 = some 7 ∧ drainExample.gen.bindings.get .hl0 ≠ some 7 := by decide +kernel

theorem witness_SessionExpiryHandsOver :
    let s := base.putEdit ⟨some ⟨.hl0, ⟨200, 20⟩, []⟩, [.hl2]⟩
    s.edit.session = some ⟨.hl0, ⟨200, 20⟩, []⟩ ∧ 20 * 10 ≤ 200 ∧ s.claimsSound :=
  ⟨rfl, by decide, ⟨by decide +kernel, (by intro ses h; cases h; decide +kernel), (by intro h; cases h)⟩⟩

/-- The header of 7.11. -/
def header : List Byte :=
  [0x4F, 0x57, 0x44, 0x52, 1, 4, 0, 30, 0, 0, 128, 128, 0, 0, 128, 128, 0x07, 0x02, 0, 1, 2, 2, 1, 1, 1, 1, 0x1F, 0x1F,
    0x1F, 0x1F, 0x23, 0xee]

/-- A record (7.2) for match line 1200, 4 lines from source line 400000, scope 15, tag 0x10, content sum 0. -/
def record : List Byte := [0xB0, 0x04, 0, 0, 0x80, 0x1A, 0x06, 0, 4, 15, 0x10, 0, 0, 0, 0xB6, 0xD1]

/-- 7.11: the header is valid; one change for each failing check, the later ones with the sum mended; and a record at each of its
checks: its sum, a length of 0 with the sum mended, an overlap, no extent long enough, and none of these. -/
theorem witness_DirectoryChecksInOrder :
    (checkHeader header = .ok ∧ checkHeader (header.set 0 0) = .noSignature ∧ checkHeader (header.set 4 2) = .badVersion
      ∧ checkHeader (header.set 7 31) = .badHeaderSum
      ∧ checkHeader ((header.set 5 65).set 31 (header.getD 31 0 - 61)) = .badCount
      ∧ checkHeader ((header.set 8 1).set 30 (header.getD 30 0 - 1)) = .badPortField)
    ∧ record.length = 16
    ∧ checkRecord [] [⟨0, 2048⟩] (record.set 0 0xB1) = .error .badRecordSum
    ∧ checkRecord [] [⟨0, 2048⟩] ((record.set 8 0).set 14 0xBA) = .error .badField
    ∧ checkRecord [.live (fieldsOf 1203 1 8 0) 1 false] [⟨0, 2048⟩] record = .error .overlap
    ∧ checkRecord [] [⟨0, 3⟩] record = .error .noSpace
    ∧ checkRecord [] ([⟨0, 3⟩] ++ ⟨9, 4⟩ :: []) record = .ok (⟨1200, 400000, 4, 15, 0x10, 0⟩, 9) :=
  ⟨by decide +kernel, rfl, rfl, rfl, rfl, rfl, rfl⟩

/-- The loader waits at a step for a line whose first fifteen halfwords are in. -/
def loading (step : LoaderStep) (line : List Byte) : State :=
  let s := run (.resetEnd 3) State.reset
  (s.putLoader { s.loader with step := step, recordCount := 4 }).putXmc
    { s.xmc with inFlight := some ⟨.loader, 524160, (halfwordsOf line).take 15, false⟩ }

/-- The halfword of the sixteenth access. -/
def lastHalfword (line : List Byte) : Halfword := (halfwordsOf line).getD 15 0

/-- The read in flight of `loading`. -/
def loadingRead (line : List Byte) : Read := ⟨.loader, 524160, (halfwordsOf line).take 15, false⟩

/-- A faulted read, and a header of another version. -/
theorem witness_FailedHeaderEndsTheLoad :
    (loading .header header).loaderReads (loadingRead header) ∧ (loading .header header).loader.step = .header
      ∧ (loadingRead (header.set 4 2)).gives (lastHalfword (header.set 4 2)) (header.set 4 2)
      ∧ checkHeader (header.set 4 2) = .badVersion :=
  ⟨⟨rfl, rfl, rfl⟩, rfl, by unfold Read.gives; decide +kernel, by decide +kernel⟩

/-- The header of 7.11 with its count, and with the count 0 and the sum mended. -/
theorem witness_ValidHeaderBeginsRecords :
    let empty := (header.set 5 0).set 31 (header.getD 31 0 + 4)
    ((loading .header header).loaderReads (loadingRead header) ∧ (loading .header header).loader.step = .header
      ∧ (loadingRead header).gives (lastHalfword header) header)
      ∧ (checkHeader header = .ok ∧ 0 < byteAt header 5)
      ∧ (loadingRead empty).gives (lastHalfword empty) empty
      ∧ (checkHeader empty = .ok ∧ byteAt empty 5 = 0 ∧ (loading .header empty).loader.report.skipped = 0) :=
  ⟨⟨⟨rfl, rfl, rfl⟩, rfl, by unfold Read.gives; decide +kernel⟩, by decide +kernel, by unfold Read.gives; decide +kernel,
    by decide +kernel⟩

/-- The loader processes records after a valid header. -/
def recording (step : LoaderStep) (line : List Byte) : State :=
  let s := loading step line
  s.putLoader { s.loader with
    pendingRecord := some Defaults.builtIn, report := { s.loader.report with headerCause := .ok } }

/-- A record line whose first record passes, and one whose first record fails its sum. -/
theorem witness_RecordLineIsJudged :
    let good := record ++ record
    let bad := record.set 0 0 ++ record
    ((recording .record good).loaderReads (loadingRead good) ∧ (recording .record good).loader.step = .record
      ∧ (recording .record good).loader.pendingRecord = some Defaults.builtIn
      ∧ (recording .record good).loader.report.headerCause = .ok)
      ∧ (loadingRead good).gives (lastHalfword good) good
      ∧ checkRecord (recording .record good).table (recording .record good).store.freeList ((good.drop 0).take 16)
        = .ok (⟨1200, 400000, 4, 15, 0x10, 0⟩, 0)
      ∧ (loadingRead bad).gives (lastHalfword bad) bad
      ∧ checkRecord (recording .record bad).table (recording .record bad).store.freeList ((bad.drop 0).take 16)
        = .error .badRecordSum :=
  ⟨⟨⟨rfl, rfl, rfl⟩, rfl, rfl, rfl⟩, by unfold Read.gives; decide +kernel, rfl, by unfold Read.gives; decide +kernel, rfl⟩

/-- The first content line of two; the only content line of a one-line record, with the right sum and with another. -/
theorem witness_ContentLinesAreCopiedAndDecide :
    let line := List.replicate 32 (1 : Byte)
    let d : DirRecord := ⟨1200, 400000, 1, 15, 0x10, 0x1010⟩
    let s := recording (.copy d 0 0) line
    (s.loaderReads (loadingRead line) ∧ s.loader.step = .copy d 0 0 ∧ s.loader.pendingRecord = some Defaults.builtIn
      ∧ s.loader.report.headerCause = .ok ∧ s.store.freeList = [] ++ ⟨0, 2048⟩ :: [])
      ∧ (loadingRead line).gives (lastHalfword line) line
      ∧ (0 < d.length ∧ 0 + d.length ≤ 2048 ∧ 0 + 1 = d.length ∧ 0 + 1 < ({ d with length := 2 } : DirRecord).length
        ∧ 0 < s.table.length ∧ entryAt s.table 0 = .free
        ∧ (s.store.writeLine 0 line).contentSum 0 1 = d.contentSum
        ∧ (s.store.writeLine 0 line).contentSum 0 1 ≠ 0x1011) :=
  ⟨⟨⟨rfl, rfl, rfl⟩, rfl, rfl, rfl, rfl⟩, by unfold Read.gives; decide +kernel, by decide +kernel⟩

/-- A record line and a content line in flight. -/
theorem witness_LoaderFaultSkipsTheRecord :
    let step := LoaderStep.copy ⟨1200, 400000, 1, 15, 0x10, 0x1010⟩ 0 0
    ((recording .record record).loaderReads (loadingRead record) ∧ (recording .record record).loader.step = .record)
      ∧ ((recording step record).loaderReads (loadingRead record) ∧ (recording step record).loader.step = step)
      ∧ (recording step record).loader.pendingRecord = some Defaults.builtIn
      ∧ (recording step record).loader.report.headerCause = .ok :=
  ⟨⟨⟨rfl, rfl, rfl⟩, rfl⟩, ⟨⟨rfl, rfl, rfl⟩, rfl⟩, rfl, rfl⟩

/-- 2.9: the extents of session 3, below, between and above. -/
theorem witness_ReturnedExtentMerges :
    let x : Extent := ⟨192, 64⟩
    1 ≤ x.length ∧ (∀ e ∈ [(⟨0, 4⟩ : Extent)], e.start + e.length < x.start)
      ∧ (∀ e ∈ [(⟨2024, 24⟩ : Extent)], x.start + x.length < e.start)
      ∧ (⟨128, 64⟩ : Extent).start + (⟨128, 64⟩ : Extent).length = x.start
      ∧ x.start + x.length = (⟨256, 128⟩ : Extent).start := by decide

/-- The sound state `base` with a command in front steps on. -/
theorem witness_StepKeepsBuffersInBounds :
    let s : State := { base with pending := [.timebaseTick] }
    s.noticesSound ∧ s.countersSound ∧ s.contentSound ∧ ∃ t, step s = .next t :=
  ⟨base_noticesSound, base_countersSound, base_contentSound, ⟨_, rfl⟩⟩

theorem witness_StepKeepsGenerations :
    let s : State := { drainExample with pending := [.drainExpiry] }
    s.generationsSound ∧ ∃ t, step s = .next t :=
  ⟨⟨drainExample_generationsSound.1, drainExample_generationsSound.2, drainExample_generationsSound.3,
    drainExample_generationsSound.4, drainExample_generationsSound.5, drainExample_generationsSound.6,
      drainExample_generationsSound.7⟩, ⟨_, rfl⟩⟩

theorem witness_StepKeepsTheSession :
    let s : State := { base with pending := [.sessionExpiry] }
    s.claimsSound ∧ s.opsSound ∧ ∃ t, step s = .next t :=
  ⟨⟨base_claimsSound.1, base_claimsSound.2, base_claimsSound.3⟩,
    ⟨base_opsSound.1, base_opsSound.2, base_opsSound.3, base_opsSound.4, base_opsSound.5, base_opsSound.6⟩, ⟨_, rfl⟩⟩

theorem base_loadSound_pending (q : List Instr) : ({ base with pending := q } : State).loadSound :=
  ⟨base_loadSound.1, base_loadSound.2, base_loadSound.3, base_loadSound.4, base_loadSound.5, base_loadSound.6,
    base_loadSound.7, base_loadSound.8⟩

theorem base_streamsSound_pending (q : List Instr) : ({ base with pending := q } : State).streamsSound :=
  ⟨base_streamsSound.1, base_streamsSound.2, base_streamsSound.3⟩

/-- The load right after a device reset waits for its header. -/
def loadExample : State := { run (.resetEnd 3) State.reset with pending := [.accessCompletes 0] }

theorem loadExample_loadSound : loadExample.loadSound :=
  ⟨(by intro _; exact ⟨rfl, rfl, fun p => by cases p <;> exact ⟨rfl, rfl⟩⟩), (by intro h; cases h), (by intro h; cases h),
    (by intro _; rfl), (by intro _ _ h; cases h), .inr ⟨rfl, _, rfl, rfl, rfl, rfl⟩,
    (by rintro (h | ⟨d, c, i, h⟩) <;> cases h), (by intro d c i h; cases h)⟩

/-- A load in progress, and a READY state. -/
theorem witness_StepKeepsLoads :
    (loadExample.loadSound ∧ ∃ t, step loadExample = .next t)
      ∧ (let s : State := { base with pending := [.deviceReset] };
        s.loadSound ∧ ∃ t, step s = .next t) :=
  ⟨⟨loadExample_loadSound, ⟨_, rfl⟩⟩, base_loadSound_pending _, ⟨_, rfl⟩⟩

theorem witness_StepKeepsStreams :
    let s : State := { base with pending := [.deviceReset] }
    s.loadSound ∧ s.streamsSound ∧ ∃ t, step s = .next t :=
  ⟨base_loadSound_pending _, base_streamsSound_pending _, ⟨_, rfl⟩⟩

theorem witness_StepKeepsOutstandingReads :
    let s : State := { base with pending := [.readyLimitExceeded] }
    s.loadSound ∧ s.streamsSound ∧ s.outstandingSound ∧ ∃ t, step s = .next t :=
  ⟨base_loadSound_pending _, base_streamsSound_pending _, ⟨base_outstandingSound.1, base_outstandingSound.2⟩, ⟨_, rfl⟩⟩

theorem witness_StepKeepsStoreOwnership :
    let s : State := { base with pending := [.deviceReset] }
    s.loadSound ∧ s.storeSound ∧ ∃ t, step s = .next t :=
  ⟨base_loadSound_pending _, ⟨base_storeSound.1, base_storeSound.2, base_storeSound.3, base_storeSound.4⟩, ⟨_, rfl⟩⟩

theorem witness_StepKeepsRangesDisjoint :
    let s : State := { base with pending := [.timebaseTick] }
    s.generationsSound ∧ s.opsSound ∧ s.loadSound ∧ s.rangesSound ∧ ∃ t, step s = .next t :=
  ⟨⟨base_generationsSound.1, base_generationsSound.2, base_generationsSound.3, base_generationsSound.4,
      base_generationsSound.5, base_generationsSound.6, base_generationsSound.7⟩,
    ⟨base_opsSound.1, base_opsSound.2, base_opsSound.3, base_opsSound.4, base_opsSound.5, base_opsSound.6⟩, base_loadSound_pending _,
    base_rangesSound, ⟨_, rfl⟩⟩

/-- HL1 is bound to S = 7 across a tick, and the RETIRING entry holds store lines 0 and 1. -/
def viewExample : State := { drainExample with store := ⟨[⟨2, 2046⟩], [], 0⟩, pending := [.timebaseTick] }

theorem viewExample_contentSound : viewExample.contentSound := by
  refine ⟨rfl, fun r h => ?_⟩
  have hr : (⟨.slot .hl1 .a, 5, List.replicate 15 0x0201, false⟩ : Read) = r := Option.some.inj h
  rw [← hr]
  decide

theorem viewExample_storeSound : viewExample.storeSound := by
  have he : entryExtents viewExample.table = [⟨0, 2⟩] := by decide +kernel
  have hf : viewExample.store.freeList = [⟨2, 2046⟩] := rfl
  refine ⟨Nat.le_of_ble_eq_true rfl, ?_, ?_, ?_⟩
  · rw [he, hf]
    decide
  · intro e h f h'
    rcases mem_tableOf h with h | rfl
    · simp at h
      subst h
      cases h'
      exact ⟨by decide, by decide, by decide, by decide⟩
    · cases h'
  · intro n hn
    rw [he, hf]
    unfold Config.storeLines at hn
    by_cases h : n < 2
    · simp [Extent.holds, h]
    · have h2 : 2 ≤ n := by omega
      simp [Extent.holds, h, h2, hn]

theorem witness_StepKeepsBoundViews :
    viewExample.generationsSound ∧ viewExample.loadSound ∧ viewExample.storeSound ∧ viewExample.contentSound
      ∧ viewExample.pending = .timebaseTick :: []
      ∧ (∃ t, step viewExample = .next t ∧ t.gen.bindings.get .hl1 = some 7) ∧ viewExample.gen.bindings.get .hl1 = some 7
      ∧ entryAt viewExample.table 0 = .retiring (fieldsOf 40 2 2 0) 5 :=
  ⟨⟨drainExample_generationsSound.1, drainExample_generationsSound.2, drainExample_generationsSound.3,
      drainExample_generationsSound.4, drainExample_generationsSound.5, drainExample_generationsSound.6,
      drainExample_generationsSound.7⟩,
    ⟨(by intro h; cases h), (by intro _; rfl), (by intro h; cases h), (by intro h; cases h), (by intro h; cases h),
      ⟨rfl, by rintro l ⟨r, hr, hq, -⟩; cases hr; cases hq⟩, (by rintro (h | ⟨d, c, i, h⟩) <;> cases h), (by intro d c i h; cases h)⟩,
    viewExample_storeSound, viewExample_contentSound, rfl, ⟨_, rfl, rfl⟩, rfl, rfl⟩

end Sys2Proof.Tests
end

/-! # The overlay table: what each command does to it, and the laws of file 01

The table, the generation numbers and bindings, the session and the store's bytes are the blocks these laws speak of. `Effect`
says once what a command can do to them; each law of a step is then one case for each effect. -/

/-! ## What a command does to the table and the blocks around it -/

namespace Sys2Proof.Machine

-- One theorem after another, as in the tests: in parallel they would only hold threads that wait for the kernel.
set_option Elab.async false

/-- `t` has the table, the generation numbers and bindings, the session but for its timer, the claim queue and the store's
bytes of `s`. -/
structure State.Agrees (s t : State) : Prop where
  table : t.table = s.table
  current : t.gen.current = s.gen.current
  superseded : t.gen.superseded = s.gen.superseded
  bindings : t.gen.bindings = s.gen.bindings
  owner : t.edit.session.map Session.owner = s.edit.session.map Session.owner
  ops : t.ops = s.ops
  queue : t.edit.claimQueue = s.edit.claimQueue
  byte : t.store.byte = s.store.byte

/-- States with the same table, store, generation control and edit controller agree. -/
theorem State.Agrees.of_blocks {s t : State} (htable : t.table = s.table) (hstore : t.store = s.store)
    (hgen : t.gen = s.gen) (hedit : t.edit = s.edit) : s.Agrees t :=
  ⟨htable, by rw [hgen], by rw [hgen], by rw [hgen], by rw [hedit], by simp [State.ops, hedit], by rw [hedit],
    by rw [hstore]⟩

theorem State.Agrees.refl (s : State) : s.Agrees s := .of_blocks rfl rfl rfl rfl

/-- The owner of the session is the same. -/
theorem State.Agrees.isOwner {s t : State} (h : s.Agrees t) (p : Port) : t.isOwner p = s.isOwner p := by
  have howner := h.owner
  unfold State.isOwner
  cases hs : s.edit.session <;> cases ht : t.edit.session <;> simp_all

/-- A timer restart changes the session's timer only (R115). -/
theorem State.restartIdle_agrees (s : State) (p : Port) : s.Agrees (s.restartIdle p) := by
  have hsession : (s.restartIdle p).edit.session.map Session.owner = s.edit.session.map Session.owner
      ∧ (s.restartIdle p).ops = s.ops ∧ (s.restartIdle p).edit.claimQueue = s.edit.claimQueue := by
    unfold State.restartIdle State.ops
    split
    · cases s.edit.session <;> simp
    · simp
  obtain ⟨howner, hops, hqueue⟩ := hsession
  exact ⟨by simp, by simp, by simp, by simp, howner, hops, hqueue, by simp⟩

/-- A response is no concern of these blocks (R171). -/
theorem State.Agrees.respond {s t : State} (h : s.Agrees t) (p : Port) (r : Response) : s.Agrees (t.respond p r) := by
  obtain ⟨htable, hcurrent, hsup, hbind, howner, hops, hqueue, hbyte⟩ := h
  exact ⟨by simpa, by simpa, by simpa, by simpa, by simpa, by simpa [State.ops] using hops, by simpa, by simpa⟩

/-- What a command can do to the table and the blocks around it. `Effect c s u`: command `c` takes `s` to a state that agrees
with `u`, which is an operation on a state `b` that agrees with `s` (its idle timer restarted, a stream closed, a notice
handed). -/
inductive Effect (c : Instr) (s : State) : State → Prop
  | unchanged : Effect c s s
  /-- An accepted SEEK binds its port to C (R50, R88). -/
  | bind (b : State) (hb : s.Agrees b) (p : Port) : Effect c s (b.rebind p (some b.gen.current))
  /-- PORT_RESET unbinds its port, then ends its session or leaves the queue (R89, R131). -/
  | portReset (b : State) (hb : s.Agrees b) (p : Port) : Effect c s ((b.rebind p none).resetSessionPart p)
  | drainExpiry (g : Nat) (hsup : s.gen.superseded = some g) :
      Effect c s (allPorts.foldl (fun s p => s.expirePort g p) s).drainEnd
  | openSession (b : State) (hb : s.Agrees b) (p : Port) (hnone : b.edit.session = none) : Effect c s (b.openSession p)
  | enqueue (b : State) (hb : s.Agrees b) (p : Port) (hopen : b.edit.session ≠ none) (howner : b.isOwner p = false)
      (hqueue : p ∉ b.edit.claimQueue) :
      Effect c s (b.putEdit { b.edit with claimQueue := b.edit.claimQueue ++ [p] })
  | stage (b : State) (hb : s.Agrees b) (p : Port) (slot : Nat) (f : EntryFields) (howner : b.isOwner p = true)
      (horigin : f.origin = .port p) (hroom : b.ops.length < Config.maxOps) (hfree : lowestFree b.table = some slot)
      (hclear : overlaps b.table f.matchLine f.length f.scope = false) : Effect c s (b.stage slot f)
  | fill (b : State) (hb : s.Agrees b) (slot index : Nat) (data : List Byte) (f : EntryFields) (fillMap : List Nat)
      (hentry : entryAt b.table slot = .staged f fillMap) (hindex : index < f.length)
      (hdata : data.length ≤ Config.lineBytes) :
      Effect c s ((b.putTable (b.table.set slot (.staged f (addIndex index fillMap)))).putStore
        (b.store.writeLine (f.storeLine + index) data))
  | discard (b : State) (hb : s.Agrees b) (slot : Nat) (f : EntryFields) (fillMap : List Nat)
      (hentry : entryAt b.table slot = .staged f fillMap) :
      Effect c s ((b.freeSlot slot).putOps (b.ops.erase (.add slot)))
  | mark (b : State) (hb : s.Agrees b) (p : Port) (slot : Nat) (f : EntryFields) (born : Nat)
      (howner : b.isOwner p = true) (hentry : entryAt b.table slot = .live f born false)
      (hroom : b.ops.length < Config.maxOps) :
      Effect c s ((b.putTable (b.table.set slot (.live f born true))).putOps (b.ops ++ [.remove slot]))
  | endEmpty (b : State) (hb : s.Agrees b) (hops : b.ops = []) : Effect c s b.endSession
  | commit (b : State) (hb : s.Agrees b) (hsup : b.gen.superseded = none) : Effect c s b.commitStep.endSession
  | release (b : State) (hb : s.Agrees b) : Effect c s b.release
  | leave (p : Port) : Effect c s (s.leaveQueue p)
  /-- DEVICE_RESET and an accepted RELOAD (R151, R153). -/
  | restart (u : State)
      (hcause : c = .deviceReset ∨
        ∃ p, c = .reload p ∧ s.arrived p .reload [] ∧ s.loader.ready = true ∧ s.isOwner p = true)
      (htable : u.table = emptyTable) (hgen : u.gen = GenControl.reset) (hedit : u.edit = EditControl.reset) :
      Effect c s u
  /-- The loader writes a content line (R144). -/
  | content (b : State) (hb : s.Agrees b) (d : DirRecord) (chosen i : Nat) (line : List Byte)
      (hstep : s.loader.step = .copy d chosen i) (hline : s.contentSound → line.length ≤ Config.lineBytes) :
      Effect c s (b.putStore (b.store.writeLine (chosen + i) line))
  /-- The loader writes a record's last content line and places the record (R145). -/
  | place (b : State) (hb : s.Agrees b) (d : DirRecord) (chosen i slot : Nat) (line : List Byte)
      (hstep : s.loader.step = .copy d chosen i) (hline : s.contentSound → line.length ≤ Config.lineBytes)
      (hfree : lowestFree b.table = some slot) :
      Effect c s ((b.putStore (b.store.writeLine (chosen + i) line)).putTable
        (b.table.set slot (.live (d.entry chosen) 1 false)))

/-- The state after a command agrees with one of its effects. -/
def HasEffect (c : Instr) (s t : State) : Prop := ∃ u, Effect c s u ∧ u.Agrees t

theorem Effect.hasEffect {c : Instr} {s u : State} (h : Effect c s u) : HasEffect c s u := ⟨u, h, .refl u⟩

theorem HasEffect.of_agrees {c : Instr} {s t : State} (h : s.Agrees t) : HasEffect c s t := ⟨s, .unchanged, h⟩

/-- A command that leaves the table, the store, generation control and the edit controller. -/
theorem HasEffect.of_blocks {c : Instr} {s t : State} (htable : t.table = s.table) (hstore : t.store = s.store)
    (hgen : t.gen = s.gen) (hedit : t.edit = s.edit) : HasEffect c s t :=
  .of_agrees (.of_blocks htable hstore hgen hedit)

/-- A request has an effect if its owner's answer has one where the request is dispatched. -/
theorem State.pointOfAction_hasEffect {c : Instr} {s t : State} {p : Port} {k : Kind} {payload : List Byte}
    {owner : State → Answer}
    (ho : s.arrived p k payload → (s.loader.ready = true ∨ answeredInLoad k = true) →
      ∀ s' r, owner s = .ok (s', r) → HasEffect c s s')
    (h : s.pointOfAction p k payload owner = .next t) : HasEffect c s t := by
  rcases State.pointOfAction_next h with rfl | ⟨-, -, -, rfl⟩ | ⟨harr, hload, s', r, hs, rfl⟩
  · exact .of_agrees (.refl _)
  · exact .of_agrees ((State.Agrees.refl _).respond _ _)
  · obtain ⟨u, hu, ha⟩ := ho harr hload s' r hs
    exact ⟨u, hu, ha.respond _ _⟩

/-! ### The requests -/

section
variable {c : Instr} {s s' : State} {p : Port} {r : Response}

theorem seekOwner_hasEffect {line : Nat} (h : seekOwner p line s = .ok (s', r)) : HasEffect c s s' := by
  unfold seekOwner at h
  (repeat' split at h) <;> cases h
  · exact .of_agrees (.refl _)
  · refine ⟨_, .bind (s.abandonBoth p) (.of_blocks ?_ ?_ ?_ ?_) p, .of_blocks ?_ ?_ ?_ ?_⟩ <;> simp [State.openStream]

theorem nextOwner_hasEffect (h : nextOwner p s = .ok (s', r)) : HasEffect c s s' := by
  unfold nextOwner nextStreaming nextDelivers at h
  dsimp only at h
  (repeat' split at h) <;> cases h <;> apply HasEffect.of_blocks <;> simp

theorem claimOwner_hasEffect {wait : Nat} (h : claimOwner p wait s = .ok (s', r)) : HasEffect c s s' := by
  have hb := s.restartIdle_agrees p
  unfold claimOwner claimBody at h
  split at h
  · cases h; exact .of_agrees hb
  split at h
  · cases h; exact (Effect.openSession _ hb p ‹_›).hasEffect
  split at h
  · cases h; exact .of_agrees hb
  split at h
  · cases h; exact .of_agrees hb
  split at h
  · cases h; exact .of_agrees hb
  · cases h
    exact (Effect.enqueue _ hb p ‹_› (Bool.eq_false_iff.mpr ‹_›) ‹_›).hasEffect

theorem addOwner_hasEffect {tag : BitVec 16} {line length : Nat} {scope : Byte} {sum : BitVec 16}
    (h : addOwner p tag line length scope sum s = .ok (s', r)) : HasEffect c s s' := by
  have hb := s.restartIdle_agrees p
  unfold addOwner addBody at h
  split at h
  · rename_i howner
    split at h
    · cases h; exact .of_agrees hb
    split at h
    · cases h; exact .of_agrees hb
    split at h
    · cases h; exact .of_agrees hb
    split at h
    · cases h; exact .of_agrees hb
    split at h <;> cases h
    · exact .of_agrees hb
    · exact (Effect.stage _ hb p _ ⟨tag, line, length, scope.setWidth 4, _, .port p, sum⟩
        ((hb.isOwner p).trans howner) rfl (Nat.not_le.mp ‹_›) ‹_› (Bool.eq_false_iff.mpr ‹_›)).hasEffect
  · cases h; exact .of_agrees (.refl s)

theorem fillOwner_hasEffect {slot index : Nat} {data : List Byte} (hdata : data.length ≤ Config.lineBytes)
    (h : fillOwner p slot index data s = .ok (s', r)) : HasEffect c s s' := by
  have hb := s.restartIdle_agrees p
  unfold fillOwner fillBody at h
  split at h
  · split at h
    · cases h
    split at h
    · cases h; exact .of_agrees hb
    split at h
    · split at h <;> cases h
      · exact .of_agrees hb
      · exact (Effect.fill _ hb slot index data _ _ ‹_› (Nat.not_le.mp ‹_›) hdata).hasEffect
    · cases h; exact .of_agrees hb
  · cases h; exact .of_agrees (.refl s)

theorem removeOwner_hasEffect {slot : Nat} (h : removeOwner p slot s = .ok (s', r)) : HasEffect c s s' := by
  have hb := s.restartIdle_agrees p
  unfold removeOwner removeBody at h
  split at h
  · rename_i howner
    split at h
    · cases h; exact .of_agrees hb
    split at h
    · cases h; exact (Effect.discard _ hb slot _ _ ‹_›).hasEffect
    · rename_i hentry
      split at h
      · cases h; exact .of_agrees hb
      rename_i hmark
      rw [Bool.not_eq_true] at hmark
      subst hmark
      split at h <;> cases h
      · exact .of_agrees hb
      · exact (Effect.mark _ hb p slot _ _ ((hb.isOwner p).trans howner) hentry (Nat.not_le.mp ‹_›)).hasEffect
    · cases h; exact .of_agrees hb
    · cases h; exact .of_agrees hb
  · cases h; exact .of_agrees (.refl s)

theorem commitOwner_hasEffect (h : commitOwner p s = .ok (s', r)) : HasEffect c s s' := by
  have hb := s.restartIdle_agrees p
  unfold commitOwner commitBody at h
  split at h
  · split at h
    · cases h
    split at h
    · cases h; exact (Effect.endEmpty _ hb ‹_›).hasEffect
    split at h
    · cases h; exact .of_agrees hb
    split at h <;> cases h
    · exact .of_agrees hb
    · exact (Effect.commit _ hb (Option.not_isSome_iff_eq_none.mp ‹_›)).hasEffect
  · cases h; exact .of_agrees (.refl s)

theorem abortOwner_hasEffect (h : abortOwner p s = .ok (s', r)) : HasEffect c s s' := by
  unfold abortOwner at h
  (repeat' split at h) <;> cases h
  · exact (Effect.release s (.refl s)).hasEffect
  · exact (Effect.leave p).hasEffect
  · exact .of_agrees (.refl s)

theorem reloadOwner_hasEffect (harr : s.arrived p .reload []) (hready : s.loader.ready = true)
    (h : reloadOwner p s = .ok (s', r)) : HasEffect (.reload p) s s' := by
  unfold reloadOwner at h
  split at h <;> cases h
  · refine (Effect.restart _ (.inr ⟨p, rfl, harr, hready, ‹_›⟩) ?_ ?_ ?_).hasEffect <;> simp [State.reload]
  · exact .of_agrees (.refl s)

theorem portReset_hasEffect : HasEffect c s (s.portReset p) := by
  refine ⟨_, .portReset (s.closeIdle p) (.of_blocks ?_ ?_ ?_ ?_) p, .of_blocks ?_ ?_ ?_ ?_⟩ <;>
    simp [State.portReset, State.resetStreamPart, State.resetNoticePart]

/-- The payload of a frame that has arrived is no longer than its kind's (R168). -/
theorem State.arrived.payload_length {k : Kind} {payload : List Byte} (h : s.arrived p k payload) :
    payload.length ≤ payloadLength k := by
  obtain ⟨count, sum, kept, -, hframe⟩ := h.phase
  unfold checkFrame at hframe
  split at hframe
  · cases hframe
  split at hframe
  · cases hframe
  split at hframe
  · cases hframe
  split at hframe
  · cases hframe
  · injection hframe with hk hpayload
    subst hk hpayload
    exact List.length_take_le _ _

end

/-! ### The external memory port's events -/

section
variable {c : Instr} {s t : State}

/-- Sixteen halfwords are the 32 bytes of a line (R71). -/
theorem length_bytesOfHalfwords (hs : List Halfword) : (bytesOfHalfwords hs).length = 2 * hs.length := by
  induction hs with
  | nil => rfl
  | cons x xs ih => simp only [bytesOfHalfwords, List.length_cons, ih]; omega

/-- A content line is written, and after the last the record may be placed (R144, R145). -/
theorem State.takeContent_agrees (s : State) (d : DirRecord) (chosen i : Nat) (line : List Byte) :
    (s.putStore (s.store.writeLine (chosen + i) line)).Agrees (s.takeContent d chosen i line) ∨
      ∃ slot, lowestFree s.table = some slot ∧
        ((s.putStore (s.store.writeLine (chosen + i) line)).putTable
          (s.table.set slot (.live (d.entry chosen) 1 false))).Agrees (s.takeContent d chosen i line) := by
  unfold State.takeContent
  dsimp only
  split
  · exact .inl (.of_blocks (by simp) (by simp) (by simp) (by simp))
  split
  · unfold State.placeRecord
    split
    · exact .inl (.of_blocks (by simp) (by simp) (by simp) (by simp))
    · exact .inr ⟨_, ‹_›, by simp, by simp, by simp, by simp, by simp, by simp [State.ops], by simp, by simp; rfl⟩
  · exact .inl (.of_blocks (by simp) (by simp) (by simp) (by simp))

/-- The end of a line read acts on these blocks only as the end of a content line's read (R47, R73, R144). -/
theorem State.endRead_hasEffect {r : Read} {result : Option (List Byte)}
    (hline : s.contentSound → ∀ line, result = some line → line.length ≤ Config.lineBytes) :
    HasEffect c s (s.endRead r result) := by
  have hb : ∀ x, s.Agrees (s.putXmc x) := fun x => .of_blocks rfl rfl rfl rfl
  have hgrant : ∀ u v : State, u.Agrees v → u.Agrees v.grant := fun u v h => by
    obtain ⟨htable, hcurrent, hsup, hbind, howner, hops, hqueue, hbyte⟩ := h
    exact ⟨by simpa, by simpa, by simpa, by simpa, by simpa, by simpa [State.ops] using hops, by simpa, by simpa⟩
  rw [State.endRead_cases]
  generalize (if result.isNone then _ else _ : Xmc) = x
  split
  · exact .of_agrees (hgrant _ _ (hb x))
  split
  · exact .of_blocks (by simp) (by simp) (by simp) (by simp)
  · rename_i line _
    unfold State.loaderData
    split
    · exact .of_agrees (hgrant _ _ (hb x))
    · split <;> exact .of_blocks (by simp) (by simp) (by simp) (by simp)
    · exact .of_blocks (by simp) (by simp) (by simp) (by simp)
    · rename_i d chosen i hstep
      have hlength : s.contentSound → line.length ≤ Config.lineBytes := fun h => hline h line rfl
      rcases (s.putXmc x).takeContent_agrees d chosen i line with ha | ⟨slot, hfree, ha⟩
      · exact ⟨_, .content _ (hb x) d chosen i line hstep hlength, hgrant _ _ ha⟩
      · exact ⟨_, .place _ (hb x) d chosen i slot line hstep hlength hfree, hgrant _ _ ha⟩
  · exact .of_blocks (by simp) (by simp) (by simp) (by simp)

theorem accessCompletes_hasEffect {xd : Halfword} (h : execAccessCompletes xd s = .next t) : HasEffect c s t := by
  unfold execAccessCompletes at h
  dsimp only at h
  split at h
  · cases h; exact .of_agrees (.refl s)
  rename_i r hr
  split at h
  · cases h; exact .of_blocks rfl rfl rfl rfl
  split at h <;> cases h
  refine State.endRead_hasEffect fun hsound line hline => ?_
  have hbound := hsound.2 r hr
  cases hline
  simp only [length_bytesOfHalfwords, List.length_append, List.length_singleton, Config.lineBytes,
    Config.accessesPerLine] at *
  omega

end

/-! ### Every command, and the step -/

section
variable {c : Instr} {s t : State}

theorem exec_hasEffect (h : exec c s = .next t) : HasEffect c s t := by
  cases c with
  | seek p line => exact State.pointOfAction_hasEffect (fun _ _ _ _ => seekOwner_hasEffect) h
  | next p => exact State.pointOfAction_hasEffect (fun _ _ _ _ => nextOwner_hasEffect) h
  | portSet p level prefetch mask base size =>
    refine State.pointOfAction_hasEffect (fun _ _ s' r ho => ?_) h
    unfold portSetOwner at ho
    (repeat' split at ho) <;> cases ho <;> exact .of_blocks rfl rfl rfl rfl
  | status p =>
    refine State.pointOfAction_hasEffect (owner := statusOwner p) (fun _ _ s' r ho => ?_) h
    cases ho
    exact .of_agrees (.refl _)
  | tableRead p slot =>
    refine State.pointOfAction_hasEffect (fun _ _ s' r ho => ?_) h
    unfold tableReadOwner at ho
    split at ho <;> cases ho <;> exact .of_agrees (.refl _)
  | noticeTake p =>
    refine State.pointOfAction_hasEffect (fun _ _ s' r ho => ?_) h
    unfold noticeTakeOwner at ho
    dsimp only at ho
    split at ho <;> cases ho <;> exact .of_blocks rfl rfl rfl rfl
  | claim p wait => exact State.pointOfAction_hasEffect (fun _ _ _ _ => claimOwner_hasEffect) h
  | add p tag line length scope sum => exact State.pointOfAction_hasEffect (fun _ _ _ _ => addOwner_hasEffect) h
  | fill p slot index data =>
    refine State.pointOfAction_hasEffect (fun harr _ _ _ => fillOwner_hasEffect ?_) h
    have := harr.payload_length
    simp only [fillPayload, payloadLength, List.length_cons, Config.lineBytes] at *
    omega
  | remove p slot => exact State.pointOfAction_hasEffect (fun _ _ _ _ => removeOwner_hasEffect) h
  | commit p => exact State.pointOfAction_hasEffect (fun _ _ _ _ => commitOwner_hasEffect) h
  | abort p => exact State.pointOfAction_hasEffect (fun _ _ _ _ => abortOwner_hasEffect) h
  | reload p =>
    refine State.pointOfAction_hasEffect (fun harr hload _ _ => reloadOwner_hasEffect harr ?_) h
    simpa [answeredInLoad] using hload
  | portReset p =>
    refine State.pointOfAction_hasEffect (owner := portResetOwner p) (fun _ _ s' r ho => ?_) h
    cases ho
    exact portReset_hasEffect
  | badFrame p =>
    replace h : execBadFrame p s = .next t := h
    unfold execBadFrame at h
    split at h <;> cases h
    · exact .of_blocks rfl rfl rfl rfl
    · exact .of_agrees (.refl s)
  | badKind p =>
    replace h : execBadKind p s = .next t := h
    unfold execBadKind at h
    split at h <;> cases h
    · exact .of_agrees ((State.Agrees.refl s).respond _ _)
    · exact .of_agrees (.refl s)
  | selectAsserted p => cases h; exact .of_blocks rfl rfl rfl rfl
  | frameDiscarded p =>
    replace h : execFrameDiscarded p s = .next t := h
    unfold execFrameDiscarded at h
    split at h <;> cases h <;> exact .of_blocks rfl rfl rfl rfl
  | responseLost p =>
    replace h : execResponseLost p s = .next t := h
    unfold execResponseLost at h
    split at h <;> cases h <;> exact .of_blocks rfl rfl rfl rfl
  | deviceReset => cases h; exact (Effect.restart _ (.inl rfl) rfl rfl rfl).hasEffect
  | resetEnd straps =>
    replace h : execResetEnd straps s = .next t := h
    unfold execResetEnd State.resetEnd at h
    split at h <;> cases h <;> exact .of_blocks (by simp) (by simp) (by simp) (by simp)
  | timebaseTick =>
    cases h
    refine .of_agrees ⟨rfl, rfl, rfl, rfl, ?_, ?_, rfl, rfl⟩
    · cases s.edit.session <;> simp
    · cases hs : s.edit.session <;> simp [State.ops, hs]
  | drainExpiry =>
    replace h : execDrainExpiry s = .next t := h
    unfold execDrainExpiry State.drainDue at h
    split at h <;> cases h
    · exact .of_agrees (.refl s)
    · rename_i g hdue
      (repeat' split at hdue) <;> cases hdue
      exact (Effect.drainExpiry g ‹_›).hasEffect
  | sessionExpiry =>
    replace h : execSessionExpiry s = .next t := h
    unfold execSessionExpiry at h
    split at h <;> cases h
    · exact .of_agrees (.refl s)
    · exact (Effect.release _ (.of_blocks (by simp) (by simp) (by simp) (by simp))).hasEffect
  | accessCompletes xd => exact accessCompletes_hasEffect h
  | readyLimitExceeded =>
    replace h : execReadyLimitExceeded s = .next t := h
    unfold execReadyLimitExceeded at h
    split at h <;> cases h
    · exact .of_agrees (.refl s)
    · exact State.endRead_hasEffect (by simp)
  | byteReceived p lo hi => cases h; exact .of_blocks rfl rfl rfl rfl
  | byteSent p => cases h; exact .of_blocks rfl rfl rfl rfl
  | selectReleased p => cases h; exact .of_blocks rfl rfl rfl rfl

/-- A step is idle, or takes the front command on the queue's rest. -/
theorem step_cases (h : step s = .next t) :
    (s.pending = [] ∧ t = s) ∨ ∃ c rest, s.pending = c :: rest ∧ exec c (s.putPending rest) = .next t := by
  unfold step at h
  split at h
  · cases h; exact .inl ⟨‹_›, rfl⟩
  · exact .inr ⟨_, _, ‹_›, h⟩

end

/-! ## The session's laws (R4, R108, R109) -/

section
variable {s t : State} {p : Port}

/-- A slot that is not FREE is one of the table's. -/
theorem lt_length_of_entryAt_ne {tbl : List Entry} {i : Nat} (h : entryAt tbl i ≠ .free) : i < tbl.length := by
  by_contra hlt
  exact h (entryAt_of_length_le (Nat.not_lt.mp hlt))

/-- Every slot of the empty table is FREE (R23). -/
theorem entryAt_emptyTable (i : Nat) : entryAt emptyTable i = .free := by simp [entryAt]

/-- The fields of a STAGED entry. -/
def Entry.stagedFields? : Entry → Option EntryFields
  | .staged f _ => some f
  | .free => none
  | .live _ _ _ => none
  | .retiring _ _ => none

theorem Entry.isSome_stagedFields? (e : Entry) : e.stagedFields?.isSome = e.isStaged := by cases e <;> rfl

theorem Entry.stagedFields?_eq_some {e : Entry} {f : EntryFields} :
    e.stagedFields? = some f ↔ ∃ fillMap, e = .staged f fillMap := by
  cases e <;> simp [Entry.stagedFields?]

/-- The laws of R109 and R4, slot by slot. -/
theorem State.opsSound_iff : s.opsSound ↔
    s.table.length = Config.tableSlots ∧ s.ops.length ≤ Config.maxOps ∧ s.ops.Nodup ∧
      (∀ slot, Op.add slot ∈ s.ops ↔ (entryAt s.table slot).stagedFields?.isSome = true) ∧
      (∀ slot, Op.remove slot ∈ s.ops ↔ (entryAt s.table slot).isMarked = true) ∧
      ∀ slot f, (entryAt s.table slot).stagedFields? = some f → ∃ p, s.isOwner p = true ∧ f.origin = .port p := by
  simp only [Entry.isSome_stagedFields?, Entry.stagedFields?_eq_some, State.isOwner_iff]
  constructor
  · rintro ⟨hlen, hbound, hnodup, hadds, hremoves, horigin⟩
    refine ⟨hlen, hbound, hnodup, hadds, hremoves, ?_⟩
    rintro slot f ⟨fillMap, he⟩
    have hmem : .staged f fillMap ∈ s.table := he ▸ entryAt_mem (lt_length_of_entryAt_ne (by simp [he]))
    obtain ⟨ses, hses, ho⟩ := horigin f fillMap hmem
    exact ⟨ses.owner, ⟨ses, hses, rfl⟩, ho⟩
  · rintro ⟨hlen, hbound, hnodup, hadds, hremoves, horigin⟩
    refine ⟨hlen, hbound, hnodup, hadds, hremoves, fun f fillMap hmem => ?_⟩
    obtain ⟨slot, -, he⟩ := exists_entryAt hmem
    obtain ⟨p, ⟨ses, hses, rfl⟩, ho⟩ := horigin slot f ⟨fillMap, he⟩
    exact ⟨ses, hses, ho⟩

/-- A change that keeps the session, and which slots are STAGED with which fields and which are marked, keeps the op list's
law. -/
theorem State.opsSound.of_table (h : s.opsSound) (howner : ∀ p, t.isOwner p = s.isOwner p) (hops : t.ops = s.ops)
    (hlen : t.table.length = s.table.length)
    (hentry : ∀ i, (entryAt t.table i).stagedFields? = (entryAt s.table i).stagedFields? ∧
      (entryAt t.table i).isMarked = (entryAt s.table i).isMarked) : t.opsSound := by
  rw [State.opsSound_iff] at *
  simpa only [hops, hlen, howner, fun i => (hentry i).1, fun i => (hentry i).2] using h

/-- With an empty op list nothing is STAGED or marked (R109). -/
theorem State.opsSound.clean (h : s.opsSound) (hops : s.ops = []) (i : Nat) :
    (entryAt s.table i).stagedFields? = none ∧ (entryAt s.table i).isMarked = false := by
  obtain ⟨-, -, -, hadds, hremoves, -⟩ := State.opsSound_iff.mp h
  simpa [hops] using And.intro (hadds i) (hremoves i)

/-- Where nothing is STAGED or marked, the empty op list is sound (R109). -/
theorem State.opsSound_of_clean (hops : t.ops = []) (hlen : t.table.length = Config.tableSlots)
    (hclean : ∀ i, (entryAt t.table i).stagedFields? = none ∧ (entryAt t.table i).isMarked = false) : t.opsSound := by
  rw [State.opsSound_iff]
  simp [hops, hlen, fun i => (hclean i).1, fun i => (hclean i).2]

theorem State.opsSound.of_agrees (h : s.opsSound) (ha : s.Agrees t) : t.opsSound :=
  h.of_table ha.isOwner ha.ops (by rw [ha.table]) (by simp [ha.table])

/-! ### The claim queue -/

/-- The laws of R108, in terms of the owner. -/
theorem State.claimsSound_iff : s.claimsSound ↔
    s.edit.claimQueue.Nodup ∧ (∀ p, s.isOwner p = true → p ∉ s.edit.claimQueue) ∧
      (s.edit.session = none → s.edit.claimQueue = []) := by
  simp only [State.isOwner_iff]
  constructor
  · rintro ⟨hnodup, howner, hclosed⟩
    exact ⟨hnodup, fun p ⟨ses, hses, hp⟩ => hp ▸ howner ses hses, hclosed⟩
  · rintro ⟨hnodup, howner, hclosed⟩
    exact ⟨hnodup, fun ses hses => howner ses.owner ⟨ses, hses, rfl⟩, hclosed⟩

theorem State.Agrees.session_eq_none (ha : s.Agrees t) : t.edit.session = none ↔ s.edit.session = none := by
  have := ha.owner
  cases hs : s.edit.session <;> cases ht : t.edit.session <;> simp_all

theorem State.claimsSound.of_agrees (h : s.claimsSound) (ha : s.Agrees t) : t.claimsSound := by
  rw [State.claimsSound_iff] at *
  simpa only [ha.isOwner, ha.queue, ha.session_eq_none] using h

theorem State.claimsSound.of_edit (h : s.claimsSound) (hedit : t.edit = s.edit) : t.claimsSound :=
  ⟨hedit ▸ h.nodup, hedit ▸ h.notOwner, hedit ▸ h.closed⟩

/-- The session that a handover opens has no op (R106, R113). -/
theorem ops_of_handedOver {queue : List Port} {limit : Nat} (h : t.edit = handedOver queue limit) : t.ops = [] := by
  cases queue <;> simp [State.ops, h, handedOver]

/-- A handover takes the queue's head as the owner, so the queue stays sound (R108, R113). -/
theorem State.claimsSound.handedOver (h : s.claimsSound) {limit : Nat}
    (hedit : t.edit = handedOver s.edit.claimQueue limit) : t.claimsSound := by
  have hnodup := h.nodup
  rw [State.claimsSound_iff]
  cases hq : s.edit.claimQueue with
  | nil => simp [State.isOwner, hedit, hq, Machine.handedOver]
  | cons q rest =>
    rw [hq, List.nodup_cons] at hnodup
    simp only [State.isOwner, hedit, hq, Machine.handedOver, decide_eq_true_eq, reduceCtorEq, false_implies, and_true]
    exact ⟨hnodup.2, fun p hp => hp ▸ hnodup.1⟩

/-! ### Each operation keeps the session's laws -/

/-- The two laws of a session (R108, R109). -/
def State.sessionSound (s : State) : Prop := s.claimsSound ∧ s.opsSound

theorem State.sessionSound.of_agrees (h : s.sessionSound) (ha : s.Agrees t) : t.sessionSound :=
  ⟨h.1.of_agrees ha, h.2.of_agrees ha⟩

/-- A change of the table alone that keeps which slots are STAGED with which fields and which are marked. -/
theorem State.sessionSound.of_table (h : s.sessionSound) (hedit : t.edit = s.edit)
    (hlen : t.table.length = s.table.length)
    (hentry : ∀ i, (entryAt t.table i).stagedFields? = (entryAt s.table i).stagedFields? ∧
      (entryAt t.table i).isMarked = (entryAt s.table i).isMarked) : t.sessionSound :=
  ⟨h.1.of_edit hedit, h.2.of_table (by simp [State.isOwner, hedit]) (by simp [State.ops, hedit]) hlen hentry⟩

/-- One slot's entry replaced by one that is STAGED with the same fields or not at all, and marked as before. -/
theorem State.sessionSound.of_set (h : s.sessionSound) {slot : Nat} {e : Entry} (hedit : t.edit = s.edit)
    (htable : t.table = s.table.set slot e) (hstaged : e.stagedFields? = (entryAt s.table slot).stagedFields?)
    (hmarked : e.isMarked = (entryAt s.table slot).isMarked) : t.sessionSound := by
  refine h.of_table hedit (by simp [htable]) fun i => ?_
  rw [htable, entryAt_set]
  split
  · rename_i hi
    rw [← hi.1]
    exact ⟨hstaged, hmarked⟩
  · exact ⟨rfl, rfl⟩

/-- The end of a drain frees RETIRING entries only (R99). -/
theorem State.sessionSound.drainEnd (h : s.sessionSound) : s.drainEnd.sessionSound := by
  refine h.of_table (by simp) (by simp [State.drainEnd_effect]) fun i => ?_
  rw [State.drainEnd_effect, entryAt_map _ rfl]
  cases entryAt s.table i <;> simp [Entry.isRetiring, Entry.stagedFields?, Entry.isMarked]

theorem State.sessionSound.rebind (h : s.sessionSound) (p : Port) (b : Option Nat) : (s.rebind p b).sessionSound := by
  rcases s.rebind_cases p b with ⟨hr, -⟩ | ⟨g, -, -, -, hr⟩ <;> rw [hr]
  · exact h.of_table rfl rfl fun _ => ⟨rfl, rfl⟩
  · exact State.sessionSound.drainEnd (h.of_table rfl rfl fun _ => ⟨rfl, rfl⟩)

/-- A session that ends by a handover with nothing STAGED or marked left (R113). -/
theorem State.sessionSound.handedOver (h : s.sessionSound) {limit : Nat}
    (hedit : t.edit = handedOver s.edit.claimQueue limit) (hlen : t.table.length = s.table.length)
    (hclean : ∀ i, (entryAt t.table i).stagedFields? = none ∧ (entryAt t.table i).isMarked = false) : t.sessionSound :=
  ⟨h.1.handedOver hedit, State.opsSound_of_clean (ops_of_handedOver hedit) (hlen.trans h.2.slots) hclean⟩

/-- A release frees the STAGED entries and clears the marks (R112). -/
theorem State.sessionSound.release (h : s.sessionSound) : s.release.sessionSound := by
  rw [State.release_effect]
  refine h.handedOver rfl (by simp) fun i => ?_
  rw [entryAt_map _ rfl]
  cases entryAt s.table i <;> exact ⟨rfl, rfl⟩

/-- A commit step makes the STAGED entries LIVE and takes the marked ones out of LIVE (R11). -/
theorem State.commitStep_table (s : State) : s.commitStep.table =
    s.table.map (Entry.commit s.gen.current (nextGeneration s.gen.current) s.currentIsBound) := by
  unfold State.commitStep
  dsimp only
  split <;> simp

theorem State.sessionSound.commit (h : s.sessionSound) : s.commitStep.endSession.sessionSound := by
  rw [State.endSession_effect]
  refine h.handedOver (limit := s.loader.defaults.idleLimit) (by simp) (by simp [State.commitStep_table]) fun i => ?_
  dsimp only
  rw [State.commitStep_table, entryAt_map _ rfl]
  cases entryAt s.table i with
  | live f born mark => cases mark <;> cases s.currentIsBound <;> exact ⟨rfl, rfl⟩
  | free => exact ⟨rfl, rfl⟩
  | staged f fillMap => exact ⟨rfl, rfl⟩
  | retiring f born => exact ⟨rfl, rfl⟩

/-- The end of a session whose op list is empty leaves the table (R124). -/
theorem State.sessionSound.endEmpty (h : s.sessionSound) (hops : s.ops = []) : s.endSession.sessionSound := by
  rw [State.endSession_effect]
  exact h.handedOver rfl rfl (h.2.clean hops)

/-- A port that leaves the queue leaves it from its own place (R108). -/
theorem State.sessionSound.leaveQueue (h : s.sessionSound) (p : Port) : (s.leaveQueue p).sessionSound := by
  have ho := h.2.of_table (t := s.leaveQueue p) (fun _ => rfl) rfl (by simp) (by simp)
  obtain ⟨hnodup, howner, hclosed⟩ := h.1
  refine ⟨⟨hnodup.erase p, fun ses hses hmem => howner ses hses (List.mem_of_mem_erase hmem), fun hnone => ?_⟩, ho⟩
  simp [State.leaveQueue, hclosed hnone]

theorem State.sessionSound.resetSessionPart (h : s.sessionSound) (p : Port) : (s.resetSessionPart p).sessionSound := by
  unfold State.resetSessionPart
  split
  · exact h.release
  · split
    · exact h.leaveQueue p
    · exact h

/-- CLAIM while no session is open (R110): the queue is empty, and nothing is STAGED or marked. -/
theorem State.sessionSound.openSession (h : s.sessionSound) (p : Port) (hnone : s.edit.session = none) :
    (s.openSession p).sessionSound := by
  have hqueue : (s.openSession p).edit.claimQueue = [] := h.1.closed hnone
  refine ⟨State.claimsSound_iff.mpr (by simp [hqueue]), State.opsSound_of_clean rfl (by simpa using h.2.slots) ?_⟩
  simpa using h.2.clean (by simp [State.ops, hnone])

/-- CLAIM that waits (R110): the port joins at the tail, neither owner nor queued before. -/
theorem State.sessionSound.enqueue (h : s.sessionSound) (p : Port) (hopen : s.edit.session ≠ none)
    (howner : s.isOwner p = false) (hqueue : p ∉ s.edit.claimQueue) :
    (s.putEdit { s.edit with claimQueue := s.edit.claimQueue ++ [p] }).sessionSound := by
  refine ⟨?_, h.2.of_table (fun _ => rfl) rfl rfl fun _ => ⟨rfl, rfl⟩⟩
  obtain ⟨hnodup, hnotOwner, -⟩ := State.claimsSound_iff.mp h.1
  refine State.claimsSound_iff.mpr ⟨List.Nodup.append hnodup (by simp) (by simpa using hqueue), fun q hq hmem => ?_,
    fun hnone => absurd hnone hopen⟩
  replace hq : s.isOwner q = true := hq
  rcases List.mem_append.mp hmem with hmem | hmem
  · exact hnotOwner q hq hmem
  · rw [List.mem_singleton.mp hmem, howner] at hq
    cases hq

/-- A new op list leaves the owner and the queue. -/
theorem State.putOps_isOwner (s : State) (ops : List Op) (p : Port) : (s.putOps ops).isOwner p = s.isOwner p := by
  simp only [State.isOwner, State.putOps, State.putEdit_edit]
  cases s.edit.session <;> rfl

theorem State.ops_putOps {ses : Session} (h : s.edit.session = some ses) (ops : List Op) : (s.putOps ops).ops = ops := by
  simp [State.ops, State.putOps, h]

theorem State.claimsSound.putOps (h : s.claimsSound) (ops : List Op) : (s.putOps ops).claimsSound := by
  have hqueue : (s.putOps ops).edit.claimQueue = s.edit.claimQueue := rfl
  have hnone : (s.putOps ops).edit.session = none ↔ s.edit.session = none := Option.map_eq_none_iff
  rw [State.claimsSound_iff] at *
  simpa only [State.putOps_isOwner, hqueue, hnone] using h

/-- One slot's entry and the op list change together (R109): the ops name the slot as its new entry asks, and every other slot
as before. `u` is the state but for its op list. -/
theorem State.sessionSound.of_op (h : s.sessionSound) {u : State} {slot : Nat} {e : Entry} {ops : List Op}
    (hp : s.isOwner p = true) (hedit : u.edit = s.edit) (htable : u.table = s.table.set slot e)
    (hslot : slot < s.table.length) (hbound : ops.length ≤ Config.maxOps) (hnodup : ops.Nodup)
    (hadds : ∀ i, Op.add i ∈ ops ↔ if i = slot then e.stagedFields?.isSome = true else Op.add i ∈ s.ops)
    (hremoves : ∀ i, Op.remove i ∈ ops ↔ if i = slot then e.isMarked = true else Op.remove i ∈ s.ops)
    (horigin : ∀ f, e.stagedFields? = some f → f.origin = .port p) : (u.putOps ops).sessionSound := by
  have howner : ∀ q, u.isOwner q = s.isOwner q := by simp [State.isOwner, hedit]
  obtain ⟨ses, hses, -⟩ := State.isOwner_iff.mp hp
  obtain ⟨hlen, -, -, hadds', hremoves', horigin'⟩ := State.opsSound_iff.mp h.2
  refine ⟨(h.1.of_edit hedit).putOps ops, State.opsSound_iff.mpr ?_⟩
  rw [State.ops_putOps (hedit ▸ hses)]
  simp only [State.putOps_isOwner, howner, State.putOps_frame, htable, List.length_set]
  have hentry : ∀ i, entryAt (s.table.set slot e) i = if i = slot then e else entryAt s.table i := by
    intro i
    simp [entryAt_set, hslot, eq_comm]
  refine ⟨hlen, hbound, hnodup, fun i => ?_, fun i => ?_, fun i f hf => ?_⟩
  · rw [hadds i, hentry]
    split
    · rfl
    · exact hadds' i
  · rw [hremoves i, hentry]
    split
    · rfl
    · exact hremoves' i
  · rw [hentry] at hf
    split at hf
    · exact ⟨p, hp, horigin f hf⟩
    · exact horigin' i f hf

/-- An accepted ADD (R109, R119). -/
theorem State.sessionSound.stage (h : s.sessionSound) {slot : Nat} {f : EntryFields} (howner : s.isOwner p = true)
    (horigin : f.origin = .port p) (hroom : s.ops.length < Config.maxOps) (hfree : lowestFree s.table = some slot) :
    (s.stage slot f).sessionSound := by
  obtain ⟨hslot, hentry, -⟩ := lowestFree_some hfree
  obtain ⟨-, -, hnodup, hadds, hremoves, -⟩ := State.opsSound_iff.mp h.2
  have hnew : Op.add slot ∉ s.ops := by simp [hadds, hentry, Entry.stagedFields?]
  have hnew' : Op.remove slot ∉ s.ops := by simp [hremoves, hentry, Entry.isMarked]
  refine h.of_op howner rfl rfl hslot (by simpa using hroom) (List.Nodup.append hnodup (by simp) (by simpa using hnew))
    (fun i => ?_) (fun i => ?_) (fun f' hf => ?_)
  · by_cases hi : i = slot <;> simp [hi, Entry.stagedFields?]
  · by_cases hi : i = slot <;> simp [hi, hnew', Entry.isMarked]
  · cases hf; exact horigin

/-- REMOVE of an unmarked LIVE entry (R109, R122). -/
theorem State.sessionSound.mark (h : s.sessionSound) {slot : Nat} {f : EntryFields} {born : Nat}
    (howner : s.isOwner p = true) (hentry : entryAt s.table slot = .live f born false)
    (hroom : s.ops.length < Config.maxOps) :
    ((s.putTable (s.table.set slot (.live f born true))).putOps (s.ops ++ [.remove slot])).sessionSound := by
  obtain ⟨-, -, hnodup, hadds, hremoves, -⟩ := State.opsSound_iff.mp h.2
  have hnew : Op.add slot ∉ s.ops := by simp [hadds, hentry, Entry.stagedFields?]
  have hnew' : Op.remove slot ∉ s.ops := by simp [hremoves, hentry, Entry.isMarked]
  refine h.of_op howner rfl rfl (lt_length_of_entryAt_ne (by simp [hentry])) (by simpa using hroom)
    (List.Nodup.append hnodup (by simp) (by simpa using hnew')) (fun i => ?_) (fun i => ?_) (fun f' hf => ?_)
  · by_cases hi : i = slot <;> simp [hi, hnew, Entry.stagedFields?]
  · by_cases hi : i = slot <;> simp [hi, Entry.isMarked]
  · cases hf

/-- REMOVE of a STAGED entry (R109, R121). -/
theorem State.sessionSound.discard (h : s.sessionSound) {slot : Nat} {f : EntryFields} {fillMap : List Nat}
    (hentry : entryAt s.table slot = .staged f fillMap) :
    ((s.freeSlot slot).putOps (s.ops.erase (.add slot))).sessionSound := by
  obtain ⟨-, hbound, hnodup, hadds, hremoves, horigin⟩ := State.opsSound_iff.mp h.2
  obtain ⟨p, howner, -⟩ := horigin slot f (by rw [hentry]; rfl)
  have hnew' : Op.remove slot ∉ s.ops := by simp [hremoves, hentry, Entry.isMarked]
  refine h.of_op howner (by simp) rfl (lt_length_of_entryAt_ne (by simp [hentry]))
    (le_trans List.length_erase_le hbound) (hnodup.erase _) (fun i => ?_) (fun i => ?_) (fun f' hf => ?_)
  · rw [hnodup.mem_erase_iff]
    by_cases hi : i = slot <;> simp [hi, Entry.stagedFields?]
  · rw [hnodup.mem_erase_iff]
    by_cases hi : i = slot <;> simp [hi, hnew', Entry.isMarked]
  · cases hf

/-- FILL leaves the fields of the STAGED entry (R120). -/
theorem State.sessionSound.fill (h : s.sessionSound) {slot : Nat} {f : EntryFields} {fillMap fillMap' : List Nat}
    (hentry : entryAt s.table slot = .staged f fillMap) (st : Store) :
    ((s.putTable (s.table.set slot (.staged f fillMap'))).putStore st).sessionSound :=
  h.of_set rfl rfl (by rw [hentry]; rfl) (by rw [hentry]; rfl)

/-- After a device reset or RELOAD no session is open and every slot is FREE (R23, R132). -/
theorem State.sessionSound_of_restart (htable : t.table = emptyTable) (hedit : t.edit = EditControl.reset) :
    t.sessionSound := by
  refine ⟨State.claimsSound_iff.mpr (by simp [hedit]),
    State.opsSound_of_clean (by simp [State.ops, hedit]) (by simp [htable]) ?_⟩
  intro i
  rw [htable, entryAt_emptyTable]
  exact ⟨rfl, rfl⟩

/-- Every effect of a command keeps the session's laws. -/
theorem Effect.sessionSound {c : Instr} {u : State} (he : Effect c s u) (h : s.sessionSound) : u.sessionSound := by
  cases he with
  | unchanged => exact h
  | bind b hb p => exact (h.of_agrees hb).rebind p _
  | portReset b hb p => exact ((h.of_agrees hb).rebind p none).resetSessionPart p
  | drainExpiry g hsup =>
    exact State.sessionSound.drainEnd (h.of_table (by simp) (by simp) (by simp))
  | openSession b hb p hnone => exact (h.of_agrees hb).openSession p hnone
  | enqueue b hb p hopen howner hqueue => exact (h.of_agrees hb).enqueue p hopen howner hqueue
  | stage b hb p slot f howner horigin hroom hfree hclear => exact (h.of_agrees hb).stage howner horigin hroom hfree
  | fill b hb slot index data f fillMap hentry hindex hdata => exact (h.of_agrees hb).fill hentry _
  | discard b hb slot f fillMap hentry => exact (h.of_agrees hb).discard hentry
  | mark b hb p slot f born howner hentry hroom => exact (h.of_agrees hb).mark howner hentry hroom
  | endEmpty b hb hops => exact (h.of_agrees hb).endEmpty hops
  | commit b hb hsup => exact (h.of_agrees hb).commit
  | release b hb => exact (h.of_agrees hb).release
  | leave p => exact h.leaveQueue p
  | restart u hcause htable hgen hedit => exact State.sessionSound_of_restart htable hedit
  | content b hb d chosen i line hstep hline =>
    exact (h.of_agrees hb).of_table rfl rfl fun _ => ⟨rfl, rfl⟩
  | place b hb d chosen i slot line hstep hline hfree =>
    have hentry := (lowestFree_some hfree).2.1
    exact (h.of_agrees hb).of_set rfl rfl (by rw [hentry]; rfl) (by rw [hentry]; rfl)

end

/-- Settles O53: every step has an effect, or is idle, and every effect keeps the session's laws. -/
theorem stepKeepsTheSession : Obligations.StepKeepsTheSession := by
  intro s t hclaims hops hstep
  rcases step_cases hstep with ⟨-, rfl⟩ | ⟨c, rest, -, hexec⟩
  · exact ⟨hclaims, hops⟩
  · obtain ⟨u, he, ha⟩ := exec_hasEffect hexec
    have h : (s.putPending rest).sessionSound :=
      State.sessionSound.of_agrees ⟨hclaims, hops⟩ (.of_blocks rfl rfl rfl rfl)
    exact (he.sessionSound h).of_agrees ha

/-! ## Visibility, lookup and the overlap check (R14 to R19) -/

/-! ### Which entries a port sees (R14, R15) -/

section
variable {c g : Nat} {sup : Option Nat} {p : Port} {e : Entry} {f : EntryFields}

/-- Visibility by the entry's state (R14, R15). -/
theorem Entry.visible?_eq_some : e.visible? c sup g p = some f ↔
    inScope f.scope p = true ∧
      (g = c ∧ (∃ born mark, e = .live f born mark) ∨
        g ≠ c ∧ sup = some g ∧
          ((∃ born mark, e = .live f born mark ∧ born ≠ c) ∨ ∃ born, e = .retiring f born)) := by
  cases e with
  | free => simp [Entry.visible?]
  | staged f' m => simp [Entry.visible?]
  | live f' born mark =>
    simp only [Entry.visible?, Option.ite_none_right_eq_some, Option.some.injEq, Bool.and_eq_true, Bool.or_eq_true,
      decide_eq_true_eq]
    constructor
    · rintro ⟨⟨hp, hg | ⟨hs, hb⟩⟩, rfl⟩
      · exact ⟨hp, .inl ⟨hg, born, mark, rfl⟩⟩
      · by_cases hg : g = c
        · exact ⟨hp, .inl ⟨hg, born, mark, rfl⟩⟩
        · exact ⟨hp, .inr ⟨hg, hs, .inl ⟨born, mark, rfl, hb⟩⟩⟩
    · rintro ⟨hp, ⟨hg, _, _, ⟨⟩⟩ | ⟨hg, hs, ⟨_, _, ⟨⟩, hb⟩ | ⟨_, ⟨⟩⟩⟩⟩
      · exact ⟨⟨hp, .inl hg⟩, rfl⟩
      · exact ⟨⟨hp, .inr ⟨hs, hb⟩⟩, rfl⟩
  | retiring f' born =>
    simp only [Entry.visible?, Option.ite_none_right_eq_some, Option.some.injEq, Bool.and_eq_true, decide_eq_true_eq]
    constructor
    · rintro ⟨⟨⟨hp, hg⟩, hs⟩, rfl⟩
      exact ⟨hp, .inr ⟨hg, hs, .inr ⟨born, rfl⟩⟩⟩
    · rintro ⟨hp, ⟨-, _, _, ⟨⟩⟩ | ⟨hg, hs, ⟨_, _, ⟨⟩, -⟩ | ⟨_, ⟨⟩⟩⟩⟩
      exact ⟨⟨⟨hp, hg⟩, hs⟩, rfl⟩

/-- Under C the LIVE entries with the port in their scope are visible (R14). -/
theorem Entry.visible?_current : e.visible? c sup c p = some f ↔
    inScope f.scope p = true ∧ ∃ born mark, e = .live f born mark := by
  simp [Entry.visible?_eq_some]

end

/-! ### Lookup (R16) -/

section
variable {c g : Nat} {sup : Option Nat} {p : Port} {x : Nat}

theorem EntryFields.covers_iff {f : EntryFields} :
    f.covers x = true ↔ f.matchLine ≤ x ∧ x < f.matchLine + f.length := by
  simp [EntryFields.covers]

/-- A hit names a slot whose visible entry covers the line, and the store line at its distance (R16). -/
theorem lookupFrom_eq_some {t : List Entry} {i j n : Nat} (h : lookupFrom i c sup g p x t = some (j, n)) :
    ∃ f, i ≤ j ∧ (entryAt t (j - i)).visible? c sup g p = some f ∧ f.covers x = true ∧
      n = f.storeLine + (x - f.matchLine) := by
  induction t generalizing i with
  | nil => cases h
  | cons e t ih =>
    have later : lookupFrom (i + 1) c sup g p x t = some (j, n) →
        ∃ f, i ≤ j ∧ (entryAt (e :: t) (j - i)).visible? c sup g p = some f ∧ f.covers x = true ∧
          n = f.storeLine + (x - f.matchLine) := by
      intro h
      obtain ⟨f, hij, hv, hrest⟩ := ih h
      have hslot : j - i = (j - (i + 1)) + 1 := by omega
      exact ⟨f, by omega, by rw [hslot]; exact hv, hrest⟩
    unfold lookupFrom at h
    split at h
    · rename_i f hv
      split at h
      · rename_i hc
        cases h
        exact ⟨f, le_refl _, by rw [Nat.sub_self]; exact hv, hc, rfl⟩
      · exact later h
    · exact later h

/-- A lookup misses exactly when no visible entry covers the line (R16). -/
theorem lookupFrom_eq_none {t : List Entry} {i : Nat} : lookupFrom i c sup g p x t = none ↔
    ∀ e ∈ t, ∀ f, e.visible? c sup g p = some f → f.covers x = false := by
  induction t generalizing i with
  | nil => simp [lookupFrom]
  | cons e t ih =>
    unfold lookupFrom
    split
    · rename_i f hv
      split
      · rename_i hc
        simp only [reduceCtorEq, List.mem_cons, forall_eq_or_imp, false_iff, not_and]
        intro h
        rw [h f hv] at hc
        cases hc
      · rename_i hc
        simp [ih, hv, Bool.eq_false_iff.mpr hc]
    · rename_i hv
      simp [ih, hv]

/-- A lookup reads of each entry only its visible fields. -/
theorem lookup_congr {t t' : List Entry} {c' : Nat} {sup' : Option Nat} (hlen : t'.length = t.length)
    (h : ∀ i, (entryAt t' i).visible? c' sup' g p = (entryAt t i).visible? c sup g p) :
    lookup t' c' sup' g p x = lookup t c sup g p x := by
  unfold lookup
  generalize 0 = i
  induction t' generalizing t i with
  | nil =>
    rw [List.eq_nil_of_length_eq_zero hlen.symm]
    rfl
  | cons e' t' ih =>
    cases t with
    | nil => cases hlen
    | cons e t =>
      have hhead : e'.visible? c' sup' g p = e.visible? c sup g p := h 0
      have htail := ih (t := t) (by simpa using hlen) (fun i => h (i + 1)) (i + 1)
      simp only [lookupFrom, hhead, htail]

end

/-- Settles O19, by the entry's state for visibility and by induction on the table for the lookup. -/
theorem lookupFindsVisibleCoveringEntry : Obligations.LookupFindsVisibleCoveringEntry := by
  intro c sup g p
  refine ⟨fun e f => Entry.visible?_eq_some, fun t x => ⟨fun i n h => ?_, ?_⟩⟩
  · obtain ⟨f, -, hv, hc, hn⟩ := lookupFrom_eq_some h
    obtain ⟨hlow, hhigh⟩ := EntryFields.covers_iff.mp hc
    exact ⟨f, hv, hlow, hhigh, hn⟩
  · unfold lookup
    rw [lookupFrom_eq_none]
    simp only [← EntryFields.covers_iff, Bool.not_eq_true]
    constructor
    · exact fun h i f hi => h _ (entryAt_mem hi) f
    · intro h e he f
      obtain ⟨i, hi, rfl⟩ := exists_entryAt he
      exact h i f hi

/-! ### The overlap check (R19) -/

theorem Entry.counted?_eq_some {e : Entry} {f : EntryFields} :
    e.counted? = some f ↔ (∃ fillMap, e = .staged f fillMap) ∨ ∃ born, e = .live f born false := by
  cases e with
  | live f' born mark => cases mark <;> simp [Entry.counted?]
  | free => simp [Entry.counted?]
  | staged f' m => simp [Entry.counted?]
  | retiring f' born => simp [Entry.counted?]

/-- Two scopes share a port exactly when their intersection is not empty. -/
theorem scopes_meet_iff {a b : BitVec 4} : a &&& b ≠ 0 ↔ ∃ p, inScope a p = true ∧ inScope b p = true := by
  simp only [inScope, ← Bool.and_eq_true, ← BitVec.getLsbD_and]
  constructor
  · intro h
    by_contra hno
    simp only [not_exists, Bool.not_eq_true] at hno
    refine h (BitVec.eq_of_getLsbD_eq fun i hi => ?_)
    rw [BitVec.ofNat_eq_ofNat, BitVec.getLsbD_zero]
    interval_cases i
    exacts [hno .hl0, hno .hl1, hno .hl2, hno .hl3]
  · rintro ⟨p, hp⟩ h
    simp [h] at hp

theorem rangesMeet_iff {m n m' n' : Nat} :
    rangesMeet m n m' n' = true ↔ ∃ x, m ≤ x ∧ x < m + n ∧ m' ≤ x ∧ x < m' + n' := by
  simp only [rangesMeet, decide_eq_true_eq]
  constructor
  · intro h
    exact ⟨max m m', by omega⟩
  · rintro ⟨x, hx⟩
    omega

theorem overlaps_eq_true {t : List Entry} {m n : Nat} {scope : BitVec 4} : overlaps t m n scope = true ↔
    ∃ e ∈ t, ∃ f, e.counted? = some f ∧ f.scope &&& scope ≠ 0 ∧ rangesMeet m n f.matchLine f.length = true := by
  unfold overlaps
  rw [List.any_eq_true]
  refine exists_congr fun e => and_congr_right fun _ => ?_
  cases e.counted? <;> simp

/-- Settles O29, from what the check counts, when scopes meet, and when ranges meet. -/
theorem overlapCheckMeets : Obligations.OverlapCheckMeets := by
  intro t m n scope
  simp only [overlaps_eq_true, Entry.counted?_eq_some, scopes_meet_iff, rangesMeet_iff]

/-! ## Ranges stay disjoint (R17, R19) -/

section
variable {s t : State} {p : Port}

/-- The entries that `sel` selects cover pairwise disjoint ranges. -/
def disjointRanges (sel : Entry → Option EntryFields) (tbl : List Entry) : Prop :=
  ∀ i j f f', i ≠ j → sel (entryAt tbl i) = some f → sel (entryAt tbl j) = some f' → f.disjoint f'

/-- The fields of an entry that the overlap check counts for a candidate of port `p` (R19). -/
def Entry.countedFor (p : Port) (e : Entry) : Option EntryFields := e.counted?.filter (fun f => inScope f.scope p)

theorem Entry.countedFor_eq_some {e : Entry} {f : EntryFields} :
    e.countedFor p = some f ↔ e.counted? = some f ∧ inScope f.scope p = true := Option.filter_eq_some_iff

theorem EntryFields.disjoint_comm {f f' : EntryFields} : f.disjoint f' ↔ f'.disjoint f := by
  simp only [EntryFields.disjoint, rangesMeet, decide_eq_false_iff_not]
  omega

/-- Pairwise disjointness need only be asked of slots in their order, inside the table. -/
theorem disjointRanges_iff_lt {sel : Entry → Option EntryFields} (hfree : sel .free = none) {tbl : List Entry} :
    disjointRanges sel tbl ↔ ∀ i j, i < j → j < tbl.length → ∀ f f',
      sel (entryAt tbl i) = some f → sel (entryAt tbl j) = some f' → f.disjoint f' := by
  constructor
  · exact fun h i j hij _ f f' => h i j f f' (by omega)
  · intro h
    have ordered : ∀ i j f f', i < j → sel (entryAt tbl i) = some f → sel (entryAt tbl j) = some f' →
        f.disjoint f' := by
      intro i j f f' hij hi hj
      refine h i j hij (lt_length_of_entryAt_ne fun he => ?_) f f' hi hj
      rw [he, hfree] at hj
      cases hj
    intro i j f f' hne hi hj
    rcases Nat.lt_or_gt_of_ne hne with hlt | hlt
    · exact ordered i j f f' hlt hi hj
    · exact EntryFields.disjoint_comm.mp (ordered j i f' f hlt hj hi)

/-- The laws of R17 and R19, port by port. -/
theorem State.rangesSound_iff : s.rangesSound ↔
    (∀ p g, g = s.gen.current ∨ s.gen.superseded = some g →
      disjointRanges (Entry.visible? s.gen.current s.gen.superseded g p) s.table) ∧
    ∀ p, disjointRanges (Entry.countedFor p) s.table := by
  unfold State.rangesSound State.visibleDisjoint State.countedDisjoint
  refine and_congr ?_ ?_
  · exact forall₂_congr fun p g => imp_congr_right fun _ => (disjointRanges_iff_lt rfl).symm
  · simp only [disjointRanges_iff_lt (sel := Entry.countedFor _) rfl, scopes_meet_iff, Entry.countedFor_eq_some]
    constructor
    · exact fun h p i j hij hj f f' ⟨hf, hp⟩ ⟨hf', hp'⟩ => h i j hij hj f f' hf hf' ⟨p, hp, hp'⟩
    · exact fun h i j hij hj f f' hf hf' ⟨p, hp, hp'⟩ => h p i j hij hj f f' ⟨hf, hp⟩ ⟨hf', hp'⟩

/-- A selection that only names entries which another named before, slot by slot, keeps the ranges disjoint. -/
theorem disjointRanges.of_subset {sel sel' : Entry → Option EntryFields} {tbl tbl' : List Entry}
    (h : disjointRanges sel tbl) (hsub : ∀ i f, sel' (entryAt tbl' i) = some f → sel (entryAt tbl i) = some f) :
    disjointRanges sel' tbl' :=
  fun i j f f' hne hi hj => h i j f f' hne (hsub i f hi) (hsub j f' hj)

/-- The empty table has no range. -/
theorem disjointRanges_emptyTable {sel : Entry → Option EntryFields} (hfree : sel .free = none) :
    disjointRanges sel emptyTable := by
  intro i j f f' _ hi
  rw [entryAt_emptyTable, hfree] at hi
  cases hi

/-- A new entry whose range is disjoint from every selected one keeps the ranges disjoint. -/
theorem disjointRanges.of_set {sel : Entry → Option EntryFields} {tbl : List Entry} (h : disjointRanges sel tbl)
    {slot : Nat} {e : Entry} (hnew : ∀ f, sel e = some f → ∀ i f', sel (entryAt tbl i) = some f' → f.disjoint f') :
    disjointRanges sel (tbl.set slot e) := by
  intro i j f f' hne hi hj
  rw [entryAt_set] at hi hj
  split at hi <;> split at hj
  · omega
  · exact hnew f hi j f' hj
  · exact EntryFields.disjoint_comm.mp (hnew f' hj i f hi)
  · exact h i j f f' hne hi hj

/-- A range that passed the overlap check is disjoint from those of the counted entries whose scope shares a port (R19). -/
theorem disjoint_of_not_overlaps {tbl : List Entry} {f f' : EntryFields} {i : Nat}
    (hclear : overlaps tbl f.matchLine f.length f.scope = false) (hp : inScope f.scope p = true)
    (hf : (entryAt tbl i).countedFor p = some f') : f.disjoint f' := by
  obtain ⟨hcounted, hp'⟩ := Entry.countedFor_eq_some.mp hf
  have hmem : entryAt tbl i ∈ tbl :=
    entryAt_mem (lt_length_of_entryAt_ne fun he => by rw [he] at hcounted; cases hcounted)
  unfold EntryFields.disjoint
  rw [← Bool.not_eq_true]
  intro hmeet
  rw [← Bool.not_eq_true, overlaps_eq_true] at hclear
  exact hclear ⟨_, hmem, f', hcounted, scopes_meet_iff.mpr ⟨p, hp', hp⟩, hmeet⟩

/-! ### Each operation keeps the ranges disjoint -/

/-- A change under which no entry becomes visible or counted. -/
theorem State.rangesSound.of_subset (h : s.rangesSound) (hcurrent : t.gen.current = s.gen.current)
    (hsup : ∀ g, t.gen.superseded = some g → s.gen.superseded = some g)
    (hvisible : ∀ i g p f, (entryAt t.table i).visible? t.gen.current t.gen.superseded g p = some f →
      (entryAt s.table i).visible? s.gen.current s.gen.superseded g p = some f)
    (hcounted : ∀ i f, (entryAt t.table i).counted? = some f → (entryAt s.table i).counted? = some f) :
    t.rangesSound := by
  rw [State.rangesSound_iff] at *
  refine ⟨fun p g hg => ?_, fun p => (h.2 p).of_subset fun i f hf => ?_⟩
  · exact (h.1 p g (hg.imp (·.trans hcurrent) (hsup g))).of_subset fun i f => hvisible i g p f
  · rw [Entry.countedFor_eq_some] at *
    exact hf.imp_left (hcounted i f)

/-- The laws speak of the table, C and S only. -/
theorem State.rangesSound.of_same (h : s.rangesSound) (htable : t.table = s.table)
    (hcurrent : t.gen.current = s.gen.current) (hsup : t.gen.superseded = s.gen.superseded) : t.rangesSound := by
  refine h.of_subset hcurrent (by simp [hsup]) ?_ ?_ <;> simp [htable, hcurrent, hsup]

theorem State.rangesSound.of_agrees (h : s.rangesSound) (ha : s.Agrees t) : t.rangesSound :=
  h.of_same ha.table ha.current ha.superseded

/-- One slot's entry replaced by one that is visible and counted at most as the old one was. -/
theorem State.rangesSound.of_set (h : s.rangesSound) {slot : Nat} {e : Entry} (hgen : t.gen = s.gen)
    (htable : t.table = s.table.set slot e)
    (hvisible : ∀ c sup g p f, e.visible? c sup g p = some f → (entryAt s.table slot).visible? c sup g p = some f)
    (hcounted : ∀ f, e.counted? = some f → (entryAt s.table slot).counted? = some f) : t.rangesSound := by
  refine h.of_subset (by rw [hgen]) (by simp [hgen]) (fun i g p f hf => ?_) (fun i f hf => ?_)
  · rw [hgen, htable, entryAt_set] at hf
    split at hf
    · rename_i hi
      exact hi.1 ▸ hvisible _ _ _ _ _ hf
    · exact hf
  · rw [htable, entryAt_set] at hf
    split at hf
    · rename_i hi
      exact hi.1 ▸ hcounted _ hf
    · exact hf

/-- With S gone, an entry left by the end of a drain is visible only where it was before (R14, R99). -/
theorem Entry.visible?_of_drained {e : Entry} {c g : Nat} {sup : Option Nat} {f : EntryFields}
    (h : (if e.isRetiring then .free else e).visible? c none g p = some f) : e.visible? c sup g p = some f := by
  rw [Entry.visible?_eq_some] at *
  obtain ⟨hp, ⟨hg, born, mark, he⟩ | ⟨-, hsup, -⟩⟩ := h
  · split at he
    · cases he
    · exact ⟨hp, .inl ⟨hg, born, mark, he⟩⟩
  · cases hsup

/-- The end of a drain (R99): C and its LIVE entries stay, and under no other generation is any entry visible. -/
theorem State.rangesSound.drainEnd (h : s.rangesSound) : s.drainEnd.rangesSound := by
  have hentry : ∀ i, entryAt s.drainEnd.table i = if (entryAt s.table i).isRetiring then .free else entryAt s.table i :=
    entryAt_map _ rfl _
  refine h.of_subset rfl (by rintro g ⟨⟩) (fun i g p f hf => ?_) fun i f hf => ?_ <;> rw [hentry] at hf
  · exact Entry.visible?_of_drained hf
  · split at hf
    · cases hf
    · exact hf

theorem State.rangesSound.rebind (h : s.rangesSound) (p : Port) (b : Option Nat) : (s.rebind p b).rangesSound := by
  rcases s.rebind_cases p b with ⟨hr, -⟩ | ⟨g, -, -, -, hr⟩ <;> rw [hr]
  · exact h.of_same rfl rfl rfl
  · exact State.rangesSound.drainEnd (h.of_same rfl rfl rfl)

/-- Every expiry leaves the table, C and S (R100 steps 1 to 3). -/
theorem State.expirePort_generations (s : State) (sup : Nat) (p : Port) :
    (s.expirePort sup p).gen.current = s.gen.current ∧ (s.expirePort sup p).gen.superseded = s.gen.superseded := by
  unfold State.expirePort
  dsimp only
  split <;> simp

/-- A release clears marks (R112): the entries it leaves counted are LIVE, so they were visible under C. -/
theorem State.rangesSound.release (h : s.rangesSound) : s.release.rangesSound := by
  obtain ⟨hvisible, -⟩ := State.rangesSound_iff.mp h
  rw [State.release_effect, State.rangesSound_iff]
  dsimp only
  refine ⟨fun p g hg => (hvisible p g hg).of_subset fun i f => ?_,
    fun p => (hvisible p _ (.inl rfl)).of_subset fun i f => ?_⟩
  · rw [entryAt_map _ rfl]
    cases entryAt s.table i <;> simp [Entry.released, Entry.visible?]
  · rw [entryAt_map _ rfl, Entry.countedFor_eq_some, Entry.visible?_current, Entry.counted?_eq_some]
    cases entryAt s.table i <;> simp +contextual [Entry.released]

theorem State.rangesSound.endSession (h : s.rangesSound) : s.endSession.rangesSound :=
  h.of_same (by simp) (by simp) (by simp)

theorem State.rangesSound.resetSessionPart (h : s.rangesSound) (p : Port) : (s.resetSessionPart p).rangesSound := by
  unfold State.resetSessionPart
  split
  · exact h.release
  · split
    · exact h.of_same rfl rfl rfl
    · exact h

/-- An accepted ADD (R119): a STAGED entry is not visible, and it passed the overlap check. -/
theorem State.rangesSound.stage (h : s.rangesSound) {slot : Nat} {f : EntryFields}
    (hclear : overlaps s.table f.matchLine f.length f.scope = false) : (s.stage slot f).rangesSound := by
  rw [State.rangesSound_iff] at *
  refine ⟨fun p g hg => (h.1 p g hg).of_set (by simp [Entry.visible?]),
    fun p => (h.2 p).of_set fun f' hf' i f'' hf'' => ?_⟩
  obtain ⟨hcounted, hp⟩ := Entry.countedFor_eq_some.mp hf'
  cases hcounted
  exact disjoint_of_not_overlaps hclear hp hf''

/-! ### The commit step -/

/-- Generation control after a commit step (R92, R93). -/
theorem State.commitStep_gen (s : State) : s.commitStep.gen =
    if s.currentIsBound then
      { s.gen with
        current := nextGeneration s.gen.current
        superseded := some s.gen.current
        drainTimer := some ⟨0, s.loader.defaults.drainLimit⟩ }
    else { s.gen with current := nextGeneration s.gen.current } := by
  unfold State.commitStep
  dsimp only
  split <;> simp

/-- The next generation is another one (R86). -/
theorem nextGeneration_ne {c : Nat} (h : isGeneration c) : nextGeneration c ≠ c := by
  obtain ⟨hlow, -⟩ := h
  unfold nextGeneration
  split <;> simp_all [Config.maxGeneration]

section
variable {c n : Nat} {bound : Bool} {e : Entry} {f : EntryFields}

/-- Under the new current generation only entries are visible that were STAGED or LIVE without a mark (R11, R14). -/
theorem Entry.countedFor_of_visible?_commit {sup : Option Nat} (h : (e.commit c n bound).visible? n sup n p = some f) :
    e.countedFor p = some f := by
  obtain ⟨hp, born, mark, hlive⟩ := Entry.visible?_current.mp h
  refine Entry.countedFor_eq_some.mpr ⟨Entry.counted?_eq_some.mpr ?_, hp⟩
  cases e with
  | free => cases hlive
  | staged f' m => cases hlive; exact .inl ⟨m, rfl⟩
  | live f' born' mark' =>
    cases mark'
    · cases hlive; exact .inr ⟨born', rfl⟩
    · cases bound <;> cases hlive
  | retiring f' born' => cases hlive

/-- Under the superseded generation the same entries are visible as were before (R11, R12, R15). -/
theorem Entry.visible?_commit_superseded (hne : n ≠ c) (hretiring : e.isRetiring = false) :
    (e.commit c n true).visible? n (some c) c p = e.visible? c none c p := by
  cases e with
  | free => rfl
  | staged f m => simp [Entry.commit, Entry.visible?, hne.symm]
  | live f born mark =>
    have hborn : (if born = n then c else born) ≠ n := by
      split
      · exact hne.symm
      · assumption
    cases mark <;> simp [Entry.commit, Entry.visible?, hne.symm, hborn]
  | retiring f born => cases hretiring

/-- The step counts no entry that was not counted (R11, R19). -/
theorem Entry.counted?_of_commit (h : (e.commit c n bound).counted? = some f) : e.counted? = some f := by
  cases e with
  | live f' born mark =>
    cases mark
    · exact h
    · cases bound <;> cases h
  | free => exact h
  | staged f' m => exact h
  | retiring f' born => exact h

end

/-- A commit step keeps the ranges disjoint: under N the counted entries become visible, under C the view stays (R17). -/
theorem State.rangesSound.commitStep (h : s.rangesSound) (hsup : s.gen.superseded = none)
    (hne : nextGeneration s.gen.current ≠ s.gen.current) (hretiring : ∀ i, (entryAt s.table i).isRetiring = false) :
    s.commitStep.rangesSound := by
  obtain ⟨hvisible, hcounted⟩ := State.rangesSound_iff.mp h
  rw [State.rangesSound_iff, State.commitStep_table, State.commitStep_gen]
  refine ⟨fun p g hg => ?_, fun p => (hcounted p).of_subset fun i f hf => ?_⟩
  · have hnew : ∀ sup, disjointRanges (Entry.visible? (nextGeneration s.gen.current) sup (nextGeneration s.gen.current) p)
        (s.table.map (Entry.commit s.gen.current (nextGeneration s.gen.current) s.currentIsBound)) := fun sup =>
      (hcounted p).of_subset fun i f hf => by
        rw [entryAt_map _ rfl] at hf
        exact Entry.countedFor_of_visible?_commit hf
    cases hbound : s.currentIsBound <;> rw [hbound] at hnew <;>
      simp only [hbound, if_true, if_false, Bool.false_eq_true] at hg ⊢
    · rcases hg with rfl | hg
      · exact hnew _
      · rw [hsup] at hg; cases hg
    · rcases hg with rfl | hg
      · exact hnew _
      · cases hg
        refine (hvisible p _ (.inl rfl)).of_subset fun i f hf => ?_
        rw [entryAt_map _ rfl, Entry.visible?_commit_superseded hne (hretiring i)] at hf
        rwa [hsup]
  · rw [entryAt_map _ rfl, Entry.countedFor_eq_some] at hf
    exact Entry.countedFor_eq_some.mpr (hf.imp_left Entry.counted?_of_commit)

/-! ### A placement by the loader -/

/-- A record is copied only while a load is in progress: no session, no drain, no binding (R136, R149). -/
theorem State.loadSound.quiet_of_copy (h : s.loadSound) {d : DirRecord} {chosen i : Nat}
    (hstep : s.loader.step = .copy d chosen i) :
    s.edit.session = none ∧ s.gen.superseded = none ∧ ∀ p, s.gen.bindings.get p = none := by
  have hready : s.loader.ready = false := by
    cases hr : s.loader.ready
    · rfl
    · cases (h.waits hr).symm.trans hstep
  obtain ⟨hsession, hsup, hports⟩ := h.quiet hready
  exact ⟨hsession, hsup, fun p => (hports p).2⟩

/-- A placed entry passed the overlap check, which counts every visible entry while nothing is marked and no drain runs
(R17). -/
theorem State.rangesSound.place (h : s.rangesSound) {d : DirRecord} {chosen slot : Nat} (hgen : t.gen = s.gen)
    (htable : t.table = s.table.set slot (.live (d.entry chosen) 1 false)) (hsup : s.gen.superseded = none)
    (hmarked : ∀ i, (entryAt s.table i).isMarked = false)
    (hclear : overlaps s.table d.matchLine d.length d.scope = false) : t.rangesSound := by
  obtain ⟨hvisible, hcounted⟩ := State.rangesSound_iff.mp h
  have hclear' : overlaps s.table (d.entry chosen).matchLine (d.entry chosen).length (d.entry chosen).scope = false := hclear
  rw [State.rangesSound_iff, hgen, htable]
  refine ⟨fun p g hg => (hvisible p g hg).of_set fun f hf i f' hf' => ?_,
    fun p => (hcounted p).of_set fun f hf i f' hf' => ?_⟩
  · have hcurrent : g = s.gen.current := hg.resolve_right (by simp [hsup])
    subst hcurrent
    obtain ⟨hp, born, mark, he⟩ := Entry.visible?_current.mp hf
    obtain ⟨hp', born', mark', he'⟩ := Entry.visible?_current.mp hf'
    have hmark := hmarked i
    rw [he'] at hmark
    cases he
    refine disjoint_of_not_overlaps (i := i) hclear' hp (Entry.countedFor_eq_some.mpr ⟨?_, hp'⟩)
    exact Entry.counted?_eq_some.mpr (.inr ⟨born', by rw [he', show mark' = false from hmark]⟩)
  · obtain ⟨hc, hp⟩ := Entry.countedFor_eq_some.mp hf
    cases hc
    exact disjoint_of_not_overlaps hclear' hp hf'

/-! ### The step -/

/-- Slot by slot: a table with no RETIRING entry. -/
theorem State.generationsSound.not_retiring (h : s.generationsSound) (hsup : s.gen.superseded = none) (i : Nat) :
    (entryAt s.table i).isRetiring = false := by
  by_cases hi : i < s.table.length
  · exact h.retiring hsup _ (entryAt_mem hi)
  · rw [entryAt_of_length_le (Nat.not_lt.mp hi)]
    rfl

/-- Every effect of a command keeps the ranges disjoint. -/
theorem Effect.rangesSound {c : Instr} {u : State} (he : Effect c s u) (hgen : s.generationsSound) (hops : s.opsSound)
    (hload : s.loadSound) (h : s.rangesSound) : u.rangesSound := by
  cases he with
  | unchanged => exact h
  | bind b hb p => exact (h.of_agrees hb).rebind p _
  | portReset b hb p => exact ((h.of_agrees hb).rebind p none).resetSessionPart p
  | drainExpiry g hsup =>
    exact State.rangesSound.drainEnd (h.of_same (by simp) (by simp [State.expirePort_generations])
      (by simp [State.expirePort_generations]))
  | openSession b hb p hnone => exact (h.of_agrees hb).of_same (by simp) (by simp) (by simp)
  | enqueue b hb p hopen howner hqueue => exact (h.of_agrees hb).of_same rfl rfl rfl
  | stage b hb p slot f howner horigin hroom hfree hclear => exact (h.of_agrees hb).stage hclear
  | fill b hb slot index data f fillMap hentry hindex hdata =>
    refine (h.of_agrees hb).of_set rfl rfl ?_ ?_ <;> simp [hentry, Entry.visible?, Entry.counted?]
  | discard b hb slot f fillMap hentry =>
    refine (h.of_agrees hb).of_set (by simp) rfl ?_ ?_ <;> simp [Entry.visible?, Entry.counted?]
  | mark b hb p slot f born howner hentry hroom =>
    refine (h.of_agrees hb).of_set rfl rfl ?_ ?_ <;> simp [hentry, Entry.visible?, Entry.counted?]
  | endEmpty b hb hops => exact (h.of_agrees hb).endSession
  | commit b hb hsup =>
    refine ((h.of_agrees hb).commitStep hsup ?_ fun i => ?_).endSession
    · rw [hb.current]; exact nextGeneration_ne hgen.current
    · rw [hb.table]; exact hgen.not_retiring (hb.superseded ▸ hsup) i
  | release b hb => exact (h.of_agrees hb).release
  | leave p => exact h.of_same rfl rfl rfl
  | restart u hcause htable hgen hedit =>
    rw [State.rangesSound_iff, htable]
    exact ⟨fun p g _ => disjointRanges_emptyTable rfl, fun p => disjointRanges_emptyTable rfl⟩
  | content b hb d chosen i line hstep hline =>
    exact (h.of_agrees hb).of_same rfl rfl rfl
  | place b hb d chosen i slot line hstep hline hfree =>
    obtain ⟨hsession, hsup, -⟩ := hload.quiet_of_copy hstep
    obtain ⟨-, -, -, -, -, -, hclear⟩ := hload.copying d chosen i hstep
    refine (h.of_agrees hb).place rfl rfl (hb.superseded.trans hsup) (fun i => ?_) (hb.table ▸ hclear)
    rw [hb.table]
    exact (hops.clean (by simp [State.ops, hsession]) i).2

end

/-- The queue's rest is no concern of the generations' laws. -/
theorem State.generationsSound.putPending {s : State} (h : s.generationsSound) (rest : List Instr) :
    (s.putPending rest).generationsSound :=
  ⟨h.current, h.superseded, h.binding, h.drained, h.timer, h.retiring, h.born⟩

/-- The queue's rest is no concern of the load's laws. -/
theorem State.loadSound.putPending {s : State} (h : s.loadSound) (rest : List Instr) : (s.putPending rest).loadSound :=
  ⟨h.quiet, h.waits, h.reset, h.current, h.runs, h.reads, h.records, h.copying⟩

/-- Settles O58: every step has an effect, or is idle, and every effect keeps the ranges disjoint. -/
theorem stepKeepsRangesDisjoint : Obligations.StepKeepsRangesDisjoint := by
  intro s t hgen hops hload hranges hstep
  rcases step_cases hstep with ⟨-, rfl⟩ | ⟨c, rest, -, hexec⟩
  · exact hranges
  · obtain ⟨u, he, ha⟩ := exec_hasEffect hexec
    have hpending : s.Agrees (s.putPending rest) := .of_blocks rfl rfl rfl rfl
    exact (he.rangesSound (hgen.putPending rest) (hops.of_agrees hpending) (hload.putPending rest)
      (hranges.of_agrees hpending)).of_agrees ha

/-! ## What a bound port sees stays (R18, R33) -/

section
variable {s t u : State} {p : Port} {g : Nat}

/-! ### Changes that touch no visible entry -/

/-- `t` has C, S and, slot by slot, the visible entries of `s`. -/
structure State.SameVisible (s t : State) : Prop where
  current : t.gen.current = s.gen.current
  superseded : t.gen.superseded = s.gen.superseded
  length : t.table.length = s.table.length
  visible : ∀ i c sup g p, (entryAt t.table i).visible? c sup g p = (entryAt s.table i).visible? c sup g p

theorem State.SameVisible.of_same (htable : t.table = s.table) (hcurrent : t.gen.current = s.gen.current)
    (hsup : t.gen.superseded = s.gen.superseded) : s.SameVisible t :=
  ⟨hcurrent, hsup, by rw [htable], by simp [htable]⟩

theorem State.Agrees.sameVisible (h : s.Agrees t) : s.SameVisible t := .of_same h.table h.current h.superseded

theorem State.SameVisible.trans (h : s.SameVisible t) (h' : t.SameVisible u) : s.SameVisible u :=
  ⟨h'.current.trans h.current, h'.superseded.trans h.superseded, h'.length.trans h.length,
    fun i c sup g p => (h'.visible i c sup g p).trans (h.visible i c sup g p)⟩

/-- One slot's entry replaced by one that is visible as the old one was. -/
theorem State.SameVisible.of_set {slot : Nat} {e : Entry} (hgen : t.gen = s.gen) (htable : t.table = s.table.set slot e)
    (hvisible : ∀ c sup g p, e.visible? c sup g p = (entryAt s.table slot).visible? c sup g p) : s.SameVisible t := by
  refine ⟨by rw [hgen], by rw [hgen], by simp [htable], fun i c sup g p => ?_⟩
  rw [htable, entryAt_set]
  split
  · rename_i hi
    rw [hvisible, hi.1]
  · rfl

/-- A release frees STAGED entries and clears marks, neither of which visibility takes into account (R18). -/
theorem State.SameVisible.release (s : State) : s.SameVisible s.release := by
  rw [State.release_effect]
  refine ⟨rfl, rfl, by simp, fun i c sup g p => ?_⟩
  rw [entryAt_map _ rfl]
  cases entryAt s.table i <;> rfl

theorem State.SameVisible.resetSessionPart (s : State) (p : Port) : s.SameVisible (s.resetSessionPart p) := by
  unfold State.resetSessionPart
  split
  · exact .release s
  · split <;> exact .of_same rfl rfl rfl

/-- Where the same entries are visible, lookups give the same answers (R16). -/
theorem State.SameVisible.lookup (h : s.SameVisible t) (x : Nat) :
    lookup t.table t.gen.current t.gen.superseded g p x = lookup s.table s.gen.current s.gen.superseded g p x := by
  rw [h.current, h.superseded]
  exact lookup_congr h.length fun i => h.visible i _ _ _ _

/-! ### The commit step (R18) -/

theorem State.currentIsBound_iff : s.currentIsBound = true ↔ ∃ p, s.gen.bindings.get p = some s.gen.current := by
  simp only [State.currentIsBound, List.any_eq_true, decide_eq_true_eq]
  exact ⟨fun ⟨p, _, h⟩ => ⟨p, h⟩, fun ⟨p, h⟩ => ⟨p, mem_allPorts p, h⟩⟩

/-- The bindings keep their numbers (R92). -/
theorem State.commitStep_bindings (s : State) : s.commitStep.gen.bindings = s.gen.bindings := by
  rw [State.commitStep_gen]
  split <;> rfl

/-- A port bound to C gets the same answers from the generation it stays bound to (R18, commit step). -/
theorem State.lookup_commitStep (hcurrent : isGeneration s.gen.current) (hsup : s.gen.superseded = none)
    (hretiring : ∀ i, (entryAt s.table i).isRetiring = false) (hbound : s.gen.bindings.get p = some s.gen.current)
    (x : Nat) :
    lookup s.commitStep.table s.commitStep.gen.current s.commitStep.gen.superseded s.gen.current p x
      = lookup s.table s.gen.current s.gen.superseded s.gen.current p x := by
  have hany : s.currentIsBound = true := State.currentIsBound_iff.mpr ⟨p, hbound⟩
  rw [State.commitStep_gen, State.commitStep_table, hany, hsup, if_pos rfl]
  refine lookup_congr (by simp) fun i => ?_
  rw [entryAt_map _ rfl]
  exact Entry.visible?_commit_superseded (nextGeneration_ne hcurrent) (hretiring i)

/-! ### The end of a drain (R18) -/

/-- Under C no RETIRING entry is visible, so the end of a drain changes no answer under C. -/
theorem lookup_drainEnd (s : State) (sup : Option Nat) (x : Nat) :
    lookup (s.table.map fun e => if Entry.isRetiring e then .free else e) s.gen.current none s.gen.current p x
      = lookup s.table s.gen.current sup s.gen.current p x := by
  refine lookup_congr (by simp) fun i => ?_
  rw [entryAt_map _ rfl]
  cases entryAt s.table i <;> simp [Entry.isRetiring, Entry.visible?]

/-- `u` gives every port that is bound to one generation in `s` and in `u` the lookups of `s`. -/
def State.KeepsViews (s u : State) : Prop :=
  ∀ p g x, s.gen.bindings.get p = some g → u.gen.bindings.get p = some g →
    lookup u.table u.gen.current u.gen.superseded g p x = lookup s.table s.gen.current s.gen.superseded g p x

theorem State.SameVisible.keepsViews (h : s.SameVisible u) : s.KeepsViews u := fun _ _ x _ _ => h.lookup x

theorem State.KeepsViews.of_agrees {b v : State} (h : b.KeepsViews u) (hb : s.Agrees b) (hv : u.Agrees v) :
    s.KeepsViews v := by
  intro p g x hs hv'
  rw [hv.sameVisible.lookup, h p g x (hb.bindings ▸ hs) (hv.bindings ▸ hv'), hb.sameVisible.lookup]

/-- A drain ends once no port is left bound to S: the ports still bound are bound to C (R87, R99). -/
theorem State.KeepsViews.of_drainEnd {v : State} (hbinding : ∀ p g, s.gen.bindings.get p = some g →
      g = s.gen.current ∨ s.gen.superseded = some g)
    (htable : v.table = s.table) (hcurrent : v.gen.current = s.gen.current)
    (hunbound : ∀ p g, s.gen.superseded = some g → v.gen.bindings.get p ≠ some g) : s.KeepsViews v.drainEnd := by
  intro p g x hs hu
  have hu' : v.gen.bindings.get p = some g := hu
  have hg : g = s.gen.current := (hbinding p g hs).resolve_right fun hsup => hunbound p g hsup hu'
  subst hg
  rw [State.drainEnd_effect, htable]
  dsimp only
  rw [hcurrent]
  exact lookup_drainEnd s _ x

/-- A change of binding, with the end of the drain where it is the last of S (R88, R89). -/
theorem State.KeepsViews.rebind (hbinding : ∀ p g, s.gen.bindings.get p = some g →
    g = s.gen.current ∨ s.gen.superseded = some g) (p : Port) (b : Option Nat) : s.KeepsViews (s.rebind p b) := by
  rcases s.rebind_cases p b with ⟨hr, -⟩ | ⟨g, hsup, -, hunbound, hr⟩ <;> rw [hr]
  · exact State.SameVisible.keepsViews ⟨rfl, rfl, rfl, fun _ _ _ _ _ => rfl⟩
  · refine .of_drainEnd hbinding rfl rfl fun q g' hg' => ?_
    rw [hsup] at hg'
    cases hg'
    exact hunbound q

/-- The expiries unbind the ports bound to S and no other (R100). -/
theorem State.expirePort_bindings (s : State) (sup : Nat) (p q : Port) :
    (s.expirePort sup p).gen.bindings.get q
      = if q = p ∧ s.gen.bindings.get q = some sup then none else s.gen.bindings.get q := by
  unfold State.expirePort
  dsimp only
  split
  · rename_i h
    by_cases hq : q = p
    · subst hq; simp [h]
    · simp [hq]
  · rename_i h
    by_cases hq : q = p
    · subst hq; simp [h]
    · simp [hq]

theorem State.expireAll_bindings (s : State) (sup : Nat) (q : Port) :
    (allPorts.foldl (fun s p => s.expirePort sup p) s).gen.bindings.get q
      = if s.gen.bindings.get q = some sup then none else s.gen.bindings.get q := by
  simp only [List.foldl_cons, List.foldl_nil]
  cases q <;> simp [State.expirePort_bindings]

/-- The laws of generation control that the views rest on hold in every state that agrees. -/
theorem State.generationsSound.binding_of_agrees (h : s.generationsSound) (hb : s.Agrees t) (p : Port) (g : Nat)
    (hg : t.gen.bindings.get p = some g) : g = t.gen.current ∨ t.gen.superseded = some g := by
  rw [hb.current, hb.superseded]
  exact h.binding p g (hb.bindings ▸ hg)

/-- Every effect of a command keeps the lookups of a port that stays bound (R18). -/
theorem Effect.keepsViews {c : Instr} (he : Effect c s u) (hgen : s.generationsSound) (hload : s.loadSound) :
    s.KeepsViews u := by
  cases he with
  | unchanged => exact (State.Agrees.refl s).sameVisible.keepsViews
  | bind b hb p => exact (State.KeepsViews.rebind (hgen.binding_of_agrees hb) p _).of_agrees hb (.refl _)
  | portReset b hb p =>
    refine State.KeepsViews.of_agrees (u := (b.rebind p none).resetSessionPart p) (fun q g x hs hu => ?_) hb (.refl _)
    rw [(State.SameVisible.resetSessionPart (b.rebind p none) p).lookup]
    exact State.KeepsViews.rebind (hgen.binding_of_agrees hb) p none q g x hs (by simpa using hu)
  | drainExpiry g hsup =>
    refine .of_drainEnd hgen.binding (by simp) (by simp [State.expirePort_generations]) fun q g' hg' => ?_
    rw [hsup] at hg'
    cases hg'
    rw [State.expireAll_bindings]
    split
    · simp
    · assumption
  | openSession b hb p hnone => exact (hb.sameVisible.trans (.of_same (by simp) (by simp) (by simp))).keepsViews
  | enqueue b hb p hopen howner hqueue => exact (hb.sameVisible.trans (.of_same rfl rfl rfl)).keepsViews
  | stage b hb p slot f howner horigin hroom hfree hclear =>
    refine State.SameVisible.keepsViews (hb.sameVisible.trans (.of_set (by simp) rfl ?_))
    simp [(lowestFree_some hfree).2.1, Entry.visible?]
  | fill b hb slot index data f fillMap hentry hindex hdata =>
    refine State.SameVisible.keepsViews (hb.sameVisible.trans (.of_set rfl rfl ?_))
    simp [hentry, Entry.visible?]
  | discard b hb slot f fillMap hentry =>
    refine State.SameVisible.keepsViews (hb.sameVisible.trans (.of_set (by simp) rfl ?_))
    simp [hentry, Entry.visible?]
  | mark b hb p slot f born howner hentry hroom =>
    refine State.SameVisible.keepsViews (hb.sameVisible.trans (.of_set rfl rfl ?_))
    simp [hentry, Entry.visible?]
  | endEmpty b hb hops => exact (hb.sameVisible.trans (.of_same (by simp) (by simp) (by simp))).keepsViews
  | commit b hb hsup =>
    refine State.KeepsViews.of_agrees (u := b.commitStep.endSession) (fun p g x hs _ => ?_) hb (.refl _)
    have hg : g = b.gen.current := (hgen.binding_of_agrees hb p g hs).resolve_right (by simp [hsup])
    subst hg
    simp only [State.endSession_frame]
    refine State.lookup_commitStep (hb.current ▸ hgen.current) hsup (fun i => ?_) hs x
    rw [hb.table]
    exact hgen.not_retiring (hb.superseded ▸ hsup) i
  | release b hb => exact (hb.sameVisible.trans (.release b)).keepsViews
  | leave p => exact (State.SameVisible.of_same (t := s.leaveQueue p) rfl rfl rfl).keepsViews
  | restart u hcause htable hgen hedit =>
    intro p g x _ hu
    rw [hgen] at hu
    cases p <;> cases hu
  | content b hb d chosen i line hstep hline => exact (hb.sameVisible.trans (.of_same rfl rfl rfl)).keepsViews
  | place b hb d chosen i slot line hstep hline hfree =>
    intro p g x hs _
    rw [(hload.quiet_of_copy hstep).2.2 p] at hs
    cases hs

/-! ### The content of LIVE and RETIRING entries (R33) -/

theorem EntryFields.holds_extent {f : EntryFields} {n : Nat} :
    f.extent.holds n = true ↔ f.storeLine ≤ n ∧ n < f.storeLine + f.length := by
  simp only [Extent.holds, Bool.and_eq_true, decide_eq_true_eq]
  rfl

/-- A store line that some extent of a list holds is counted there. -/
theorem one_le_countP_holds {l : List Extent} {x : Extent} {n : Nat} (hx : x ∈ l) (hn : x.holds n = true) :
    1 ≤ l.countP (fun x => x.holds n) := List.countP_pos_iff.mpr ⟨x, hx, hn⟩

/-- The extent of a slot of a part of the table is one of that part's. -/
theorem mem_entryExtents {tbl : List Entry} {e : Entry} {f : EntryFields} (he : e ∈ tbl) (hf : e.fields? = some f) :
    f.extent ∈ entryExtents tbl :=
  List.mem_filterMap.mpr ⟨e, he, by simp [Entry.extent?, hf]⟩

/-- A line of an entry's extent lies in no free extent (R24). -/
theorem State.storeSound.not_free (h : s.storeSound) {slot n : Nat} {f : EntryFields} {x : Extent}
    (hf : (entryAt s.table slot).fields? = some f) (hn : f.extent.holds n = true) (hx : x ∈ s.store.freeList)
    (hline : n < Config.storeLines) : x.holds n = false := by
  rw [← Bool.not_eq_true]
  intro hxn
  have hmem : entryAt s.table slot ∈ s.table :=
    entryAt_mem (lt_length_of_entryAt_ne fun he => by rw [he] at hf; cases hf)
  have howned := h.owned n hline
  rw [List.countP_append] at howned
  have hfree := one_le_countP_holds hx hxn
  have hentry := one_le_countP_holds (mem_entryExtents hmem hf) hn
  omega

/-- A line lies in the extent of one slot only (R24). -/
theorem State.storeSound.slot_unique (h : s.storeSound) {i j n : Nat} {f f' : EntryFields}
    (hi : (entryAt s.table i).fields? = some f) (hj : (entryAt s.table j).fields? = some f')
    (hn : f.extent.holds n = true) (hn' : f'.extent.holds n = true) (hline : n < Config.storeLines) : i = j := by
  have ordered : ∀ i j f f', i < j → (entryAt s.table i).fields? = some f → (entryAt s.table j).fields? = some f' →
      f.extent.holds n = true → f'.extent.holds n = true → False := by
    intro i j f f' hij hi hj hn hn'
    have hjlt : j < s.table.length := lt_length_of_entryAt_ne fun he => by rw [he] at hj; cases hj
    have hilt : i < s.table.length := by omega
    have hleft : entryAt s.table i ∈ s.table.take j := by
      simp only [entryAt, List.getD_eq_getElem?_getD, List.getElem?_eq_getElem hilt, Option.getD_some]
      exact List.mem_take_iff_getElem.mpr ⟨i, by omega, rfl⟩
    have hright : entryAt s.table j ∈ s.table.drop j := by
      simp only [entryAt, List.getD_eq_getElem?_getD, List.getElem?_eq_getElem hjlt, Option.getD_some]
      exact List.mem_drop_iff_getElem.mpr ⟨0, by omega, rfl⟩
    have howned := h.owned n hline
    have hsplit : entryExtents s.table = entryExtents (s.table.take j) ++ entryExtents (s.table.drop j) := by
      simp only [entryExtents, ← List.filterMap_append, List.take_append_drop]
    rw [hsplit, List.countP_append, List.countP_append] at howned
    have := one_le_countP_holds (mem_entryExtents hleft hi) hn
    have := one_le_countP_holds (mem_entryExtents hright hj) hn'
    omega
  rcases Nat.lt_trichotomy i j with hlt | heq | hlt
  · exact (ordered i j f f' hlt hi hj hn hn').elim
  · exact heq
  · exact (ordered j i f' f hlt hj hi hn' hn).elim

/-- A commit step leaves every byte of the store (R13, R91). -/
theorem State.commitStep_byte (s : State) : s.commitStep.store.byte = s.store.byte := by
  unfold State.commitStep
  dsimp only
  split
  · simp
  · simp only [State.handCommitted_frame]; rfl

theorem State.release_byte (s : State) : s.release.store.byte = s.store.byte := by
  rw [State.release_effect]
  rfl

theorem State.resetSessionPart_byte (s : State) (p : Port) : (s.resetSessionPart p).store.byte = s.store.byte := by
  unfold State.resetSessionPart
  split
  · exact s.release_byte
  · split <;> rfl

/-- Every effect but a restart keeps the bytes of a LIVE or RETIRING entry's lines: FILL writes into a STAGED entry's extent,
and the loader into a free one. -/
theorem Effect.keepsContent {c : Instr} (he : Effect c s u) (hload : s.loadSound) (hstore : s.storeSound)
    (hcontent : s.contentSound) (hreset : c ≠ .deviceReset)
    (hreload : ∀ p, c = .reload p → s.arrived p .reload [] → s.loader.ready = true → s.isOwner p = false)
    {slot n i : Nat} {f : EntryFields} (hfields : (entryAt s.table slot).fields? = some f)
    (hstaged : (entryAt s.table slot).isStaged = false) (hn : f.extent.holds n = true) (hi : i < Config.lineBytes) :
    u.store.byte n i = s.store.byte n i := by
  have hline : n < Config.storeLines := by
    have hmem : entryAt s.table slot ∈ s.table :=
      entryAt_mem (lt_length_of_entryAt_ne fun he => by rw [he] at hfields; cases hfields)
    have hbound := (hstore.fields _ hmem f hfields).store
    obtain ⟨-, hhigh⟩ := EntryFields.holds_extent.mp hn
    exact lt_of_lt_of_le hhigh hbound
  -- the loader writes into the first extent that fits, which is free
  have hcopy : ∀ d chosen j (line : List Byte) (b : State), s.Agrees b → s.loader.step = .copy d chosen j →
      (s.contentSound → line.length ≤ Config.lineBytes) →
      (b.store.writeLine (chosen + j) line).byte n i = s.store.byte n i := by
    intro d chosen j line b hb hstep hlength
    obtain ⟨hfit, -, -, -, -, hj, -⟩ := hload.copying d chosen j hstep
    obtain ⟨before, x, after, hfree, -, hx, rfl⟩ := firstFit_some hfit
    have hxn := hstore.not_free hfields hn (by rw [hfree]; simp) hline (x := x)
    rw [Store.byte_writeLine_other _ hi (hlength hcontent), hb.byte]
    rintro rfl
    simp [Extent.holds] at hxn
    omega
  cases he with
  | unchanged => rfl
  | bind b hb p => rw [State.rebind_byte, hb.byte]
  | portReset b hb p => rw [State.resetSessionPart_byte, State.rebind_byte, hb.byte]
  | drainExpiry g hsup =>
    have hfold : (allPorts.foldl (fun s p => s.expirePort g p) s).store = s.store := by simp
    rw [State.drainEnd_effect]
    simp only [hfold]
    rfl
  | openSession b hb p hnone => rw [← hb.byte]; simp
  | enqueue b hb p hopen howner hqueue => rw [← hb.byte]; rfl
  | stage b hb p slot f howner horigin hroom hfree hclear => rw [← hb.byte]; rfl
  | fill b hb slot' index data f' fillMap hentry hindex hdata =>
    rw [hb.table] at hentry
    have hwritten : f'.extent.holds (f'.storeLine + index) = true := EntryFields.holds_extent.mpr (by omega)
    have hne : n ≠ f'.storeLine + index := by
      rintro rfl
      have := hstore.slot_unique hfields (by rw [hentry]; rfl) hn hwritten hline
      rw [this, hentry] at hstaged
      cases hstaged
    rw [State.putStore_store, Store.byte_writeLine_other hne hi hdata, hb.byte]
  | discard b hb slot f fillMap hentry => rw [← hb.byte]; rfl
  | mark b hb p slot f born howner hentry hroom => rw [← hb.byte]; rfl
  | endEmpty b hb hops => rw [← hb.byte]; simp
  | commit b hb hsup =>
    have hend : b.commitStep.endSession.store = b.commitStep.store := by simp
    rw [hend, State.commitStep_byte, hb.byte]
  | release b hb => rw [State.release_byte, hb.byte]
  | leave p => rfl
  | restart u hcause htable hgen hedit =>
    rcases hcause with hc | ⟨p, hc, harr, hready, howner⟩
    · exact absurd hc hreset
    · rw [hreload p hc harr hready] at howner
      cases howner
  | content b hb d chosen j line hstep hlength => exact hcopy d chosen j line b hb hstep hlength
  | place b hb d chosen j slot line hstep hlength hfree => exact hcopy d chosen j line b hb hstep hlength

end

/-! ### The statements -/

/-- The queue's rest is no concern of the store's laws. -/
theorem State.storeSound.putPending {s : State} (h : s.storeSound) (rest : List Instr) : (s.putPending rest).storeSound :=
  ⟨h.sorted, h.inside, h.fields, h.owned⟩

/-- Settles O20, from what the commit step makes of each entry. -/
theorem commitStepKeepsBoundView : Obligations.CommitStepKeepsBoundView := by
  intro s p x hgen hsup hbound
  exact ⟨State.lookup_commitStep hgen.current hsup (hgen.not_retiring hsup) hbound x,
    by rw [State.commitStep_bindings, hbound]⟩

/-- Settles O59: every effect of a command keeps the views of bound ports, and every effect but a restart keeps the
content. -/
theorem stepKeepsBoundViews : Obligations.StepKeepsBoundViews := by
  intro s t c rest hgen hload hstore hcontent hq hstep
  have hexec : exec c (s.putPending rest) = .next t := by
    unfold step at hstep
    rwa [hq] at hstep
  obtain ⟨u, he, ha⟩ := exec_hasEffect hexec
  refine ⟨fun p g x hs ht => ?_, fun hreset hreload slot f hentry n i hlow hhigh hi => ?_⟩
  · exact (he.keepsViews (hgen.putPending rest) (hload.putPending rest)).of_agrees (.of_blocks rfl rfl rfl rfl) ha
      p g x hs ht
  · have hreload' : ∀ p, c = .reload p → (s.putPending rest).arrived p .reload [] →
        (s.putPending rest).loader.ready = true → (s.putPending rest).isOwner p = false := fun p hc harr hready =>
      State.isOwner_eq_false.mpr fun ses hses => hreload p ses hc harr hready hses
    have hfields : (entryAt s.table slot).fields? = some f ∧ (entryAt s.table slot).isStaged = false := by
      rcases hentry with ⟨born, mark, h⟩ | ⟨born, h⟩ <;> rw [h] <;> exact ⟨rfl, rfl⟩
    rw [ha.byte]
    exact he.keepsContent (hload.putPending rest) (hstore.putPending rest) hcontent hreset hreload' hfields.1 hfields.2
      (EntryFields.holds_extent.mpr ⟨hlow, hhigh⟩) hi

/-! ## Reset, and what completes -/

/-! ### No command stops inside the store -/

section
variable {s : State}

/-- A request completes where its owner does not stop. -/
theorem State.pointOfAction_completes {p : Port} {k : Kind} {payload : List Byte} {owner : State → Answer}
    (h : ∃ a, owner s = .ok a) : ∃ t, s.pointOfAction p k payload owner = .next t := by
  obtain ⟨⟨s', r⟩, ho⟩ := h
  unfold State.pointOfAction
  split
  · split
    · exact ⟨_, rfl⟩
    · rw [ho]
      exact ⟨_, rfl⟩
  · exact ⟨_, rfl⟩

/-- The end of a read stops only where the loader would write past the store (log entry 2). -/
theorem State.endReadOutsideStore_eq_false (h : s.loaderInStore = true) (r : Read) (result : Option (List Byte)) :
    s.endReadOutsideStore r result = false := by
  simp [State.endReadOutsideStore, h]

end

/-- Settles O2, command by command: the guards of SEEK, NEXT, FILL, COMMIT and of a completed read are all that can stop. -/
theorem commandsCompleteInsideTheStore : Obligations.CommandsCompleteInsideTheStore := by
  intro c s htable hloader
  cases c with
  | seek p line =>
    refine State.pointOfAction_completes ?_
    unfold seekOwner
    rw [htable]
    split <;> exact ⟨_, rfl⟩
  | next p =>
    refine State.pointOfAction_completes ?_
    unfold nextOwner
    rw [htable]
    split <;> exact ⟨_, rfl⟩
  | portSet p level prefetch mask base size =>
    refine State.pointOfAction_completes ?_
    unfold portSetOwner
    (repeat' split) <;> exact ⟨_, rfl⟩
  | status p => exact State.pointOfAction_completes (owner := statusOwner p) ⟨_, rfl⟩
  | tableRead p slot =>
    refine State.pointOfAction_completes ?_
    unfold tableReadOwner
    split <;> exact ⟨_, rfl⟩
  | noticeTake p =>
    refine State.pointOfAction_completes ?_
    unfold noticeTakeOwner
    dsimp only
    split <;> exact ⟨_, rfl⟩
  | claim p wait => exact State.pointOfAction_completes (owner := claimOwner p wait.toNat) ⟨_, rfl⟩
  | add p tag line length scope sum =>
    refine State.pointOfAction_completes ?_
    unfold addOwner
    split <;> exact ⟨_, rfl⟩
  | fill p slot index data =>
    refine State.pointOfAction_completes ?_
    unfold fillOwner
    rw [htable]
    split <;> exact ⟨_, rfl⟩
  | remove p slot =>
    refine State.pointOfAction_completes ?_
    unfold removeOwner
    split <;> exact ⟨_, rfl⟩
  | commit p =>
    refine State.pointOfAction_completes ?_
    unfold commitOwner
    rw [htable]
    split <;> exact ⟨_, rfl⟩
  | abort p =>
    refine State.pointOfAction_completes ?_
    unfold abortOwner
    (repeat' split) <;> exact ⟨_, rfl⟩
  | reload p =>
    refine State.pointOfAction_completes ?_
    unfold reloadOwner
    split <;> exact ⟨_, rfl⟩
  | portReset p => exact State.pointOfAction_completes (owner := portResetOwner p) ⟨_, rfl⟩
  | badFrame p =>
    change ∃ t, execBadFrame p s = .next t
    unfold execBadFrame
    split <;> exact ⟨_, rfl⟩
  | badKind p =>
    change ∃ t, execBadKind p s = .next t
    unfold execBadKind
    split <;> exact ⟨_, rfl⟩
  | selectAsserted p => exact ⟨_, rfl⟩
  | frameDiscarded p =>
    change ∃ t, execFrameDiscarded p s = .next t
    unfold execFrameDiscarded
    split <;> exact ⟨_, rfl⟩
  | responseLost p =>
    change ∃ t, execResponseLost p s = .next t
    unfold execResponseLost
    split <;> exact ⟨_, rfl⟩
  | deviceReset => exact ⟨_, rfl⟩
  | resetEnd straps =>
    change ∃ t, execResetEnd straps s = .next t
    unfold execResetEnd
    split <;> exact ⟨_, rfl⟩
  | timebaseTick => exact ⟨_, rfl⟩
  | drainExpiry =>
    change ∃ t, execDrainExpiry s = .next t
    unfold execDrainExpiry
    split <;> exact ⟨_, rfl⟩
  | sessionExpiry =>
    change ∃ t, execSessionExpiry s = .next t
    unfold execSessionExpiry
    split <;> exact ⟨_, rfl⟩
  | accessCompletes xd =>
    change ∃ t, execAccessCompletes xd s = .next t
    unfold execAccessCompletes
    dsimp only
    split
    · exact ⟨_, rfl⟩
    · rw [State.endReadOutsideStore_eq_false hloader]
      split <;> exact ⟨_, rfl⟩
  | readyLimitExceeded =>
    change ∃ t, execReadyLimitExceeded s = .next t
    unfold execReadyLimitExceeded
    split <;> exact ⟨_, rfl⟩
  | byteReceived p lo hi => exact ⟨_, rfl⟩
  | byteSent p => exact ⟨_, rfl⟩
  | selectReleased p => exact ⟨_, rfl⟩

/-! ### The reset state (R153) -/

@[simp] theorem State.reset_streams (p : Port) : State.reset.streams.get p = StreamUnit.reset := by cases p <;> rfl
@[simp] theorem State.reset_notices (p : Port) : State.reset.notices.get p = NoticeUnit.reset := by cases p <;> rfl
@[simp] theorem State.reset_bindings (p : Port) : State.reset.gen.bindings.get p = none := by cases p <;> rfl
@[simp] theorem State.reset_table : State.reset.table = emptyTable := rfl

theorem State.reset_entry {e : Entry} (h : e ∈ State.reset.table) : e = .free := List.eq_of_mem_replicate h

/-- The request set is empty and no read is in flight (R82). -/
theorem State.reset_slotRequest (p : Port) (k : SlotId) : State.reset.xmc.slotRequest p k = none := by
  cases p <;> cases k <;> rfl

theorem State.reset_inFlight : State.reset.xmc.inFlight = none := rfl

theorem State.reset_generationsSound : State.reset.generationsSound where
  current := ⟨le_refl _, by decide⟩
  superseded := by rintro g ⟨⟩
  binding := by simp
  drained := by rintro g ⟨⟩
  timer := rfl
  retiring := fun _ e he => by rw [State.reset_entry he]; rfl
  born := by
    intro e he f born hf
    rw [State.reset_entry he] at hf
    rcases hf with ⟨mark, h⟩ | h <;> cases h

theorem State.reset_loadSound : State.reset.loadSound where
  quiet := fun _ => ⟨rfl, rfl, by simp⟩
  waits := by rintro ⟨⟩
  reset := fun _ => ⟨rfl, rfl⟩
  current := fun _ => rfl
  runs := by rintro - ⟨⟩
  reads := ⟨rfl, by simp [Xmc.servesLoader, State.reset_inFlight]⟩
  records := by rintro (h | ⟨d, chosen, i, h⟩) <;> cases h
  copying := by rintro d chosen i ⟨⟩

theorem Settings.reset_sound : Settings.reset.sound := by unfold Settings.sound; decide

theorem State.reset_streamsSound : State.reset.streamsSound where
  streams := fun p => by
    rw [State.reset_streams, State.reset_bindings]
    exact ⟨Settings.reset_sound, rfl, rfl, rfl⟩
  defaults := fun p => by cases p <;> exact Settings.reset_sound
  pending := by rintro d ⟨⟩

theorem State.reset_outstandingSound : State.reset.outstandingSound where
  granted := by
    rintro - (⟨p, k⟩ | _)
    · exact State.reset_slotRequest p k
    · rfl
  slots := fun p k => by
    have hslot : (State.reset.streams.get p).slots.get k = .empty := by rw [State.reset_streams]; cases k <;> rfl
    rw [hslot]
    exact ⟨State.reset_slotRequest p k, by simp [Xmc.servesSlot, State.reset_inFlight]⟩

/-- One full extent holds every store line (R26). -/
theorem State.reset_storeSound : State.reset.storeSound where
  sorted := by change 1 ≤ Config.storeLines; decide
  inside := by
    have hentries : entryExtents State.reset.table = [] := by decide
    rw [hentries]
    intro x hx
    rw [List.mem_singleton.mp hx]
    decide
  fields := by
    intro e he f hf
    rw [State.reset_entry he] at hf
    cases hf
  owned := by
    have hentries : entryExtents State.reset.table = [] := by decide
    intro n hn
    rw [hentries]
    change [Extent.mk 0 Config.storeLines].countP (fun x => x.holds n) = 1
    simp [Extent.holds, hn]

/-- Settles O60, law by law. -/
theorem resetStateIsSound : Obligations.ResetStateIsSound := by
  obtain ⟨hclaims, hops⟩ := State.sessionSound_of_restart (t := State.reset) rfl rfl
  refine ⟨fun p => ?_, ⟨Nat.zero_le _, fun p => ?_⟩, State.reset_generationsSound, hclaims, hops,
    State.reset_loadSound, State.reset_streamsSound, State.reset_outstandingSound, State.reset_storeSound,
    ⟨Memory.wf_reset, ?_⟩, ?_⟩
  · rw [State.reset_notices]
    exact ⟨Nat.zero_le _, by rintro ⟨⟩⟩
  · cases p <;> exact Nat.zero_le _
  · rintro r ⟨⟩
  · rw [State.rangesSound_iff, State.reset_table]
    exact ⟨fun p g _ => disjointRanges_emptyTable rfl, fun p => disjointRanges_emptyTable rfl⟩

/-! ## TABLE_READ, ADD and COMMIT -/

/-! ### TABLE_READ (R21, R180) -/

theorem originCode_lt (o : Origin) : originCode o < 256 := by
  rcases o with _ | p
  · decide
  · cases p <;> decide

/-- The 18 bytes of the record of a slot whose entry is not FREE (R180). -/
theorem entryPayload_bytes (slot code born count : Nat) (f : EntryFields) (mark : Bool) :
    field1 slot ++ entryPayload code f born mark count =
      [.ofNat 8 slot, .ofNat 8 code, .ofNat 8 f.tag.toNat, .ofNat 8 (f.tag.toNat / 256), .ofNat 8 f.matchLine,
        .ofNat 8 (f.matchLine / 256), .ofNat 8 (f.matchLine / 65536), .ofNat 8 f.length, .ofNat 8 f.scope.toNat,
        .ofNat 8 f.storeLine, .ofNat 8 (f.storeLine / 256), .ofNat 8 born, .ofNat 8 (born / 256),
        .ofNat 8 (originCode f.origin), .ofNat 8 f.contentSum.toNat, .ofNat 8 (f.contentSum.toNat / 256),
        if mark then 1 else 0, .ofNat 8 count] := rfl

/-- The record of a slot whose entry is not FREE, field by field (R180). -/
theorem entryPayload_fields {slot code born count : Nat} {f : EntryFields} {mark : Bool} (hslot : slot < 256)
    (hcode : code < 256) : let b := field1 slot ++ entryPayload code f born mark count
    b.length = 18 ∧ byteAt b 0 = slot ∧ byteAt b 1 = code ∧ read2 b 2 = f.tag.toNat ∧
      read3 b 4 = f.matchLine % 16777216 ∧ byteAt b 7 = f.length % 256 ∧ byteAt b 8 = f.scope.toNat ∧
      read2 b 9 = f.storeLine % 65536 ∧ read2 b 11 = born % 65536 ∧ byteAt b 13 = originCode f.origin ∧
      read2 b 14 = f.contentSum.toNat ∧ byteAt b 16 = (if mark then 1 else 0) ∧ byteAt b 17 = count % 256 := by
  have htag := f.tag.isLt
  have hscope := f.scope.isLt
  have hsum := f.contentSum.isLt
  have horigin := originCode_lt f.origin
  rw [entryPayload_bytes]
  simp only [byteAt, read2, read3, List.getD_cons_succ, List.getD_cons_zero, Nat.reduceAdd, BitVec.toNat_ofNat,
    List.length_cons, List.length_nil, true_and, and_true]
  refine ⟨by omega, by omega, by omega, by omega, by omega, by omega, by omega, by omega, by omega, ?_⟩
  cases mark <;> rfl

/-- Settles O22: the slot is refused, or its record is answered, by the state of its entry. -/
theorem tableReadReportsTheSlot : Obligations.TableReadReportsTheSlot := by
  intro p slot s harr
  have hexec : ∀ r, tableReadOwner slot.toNat s = .ok (s, r) →
      exec (.tableRead p slot) s = .next { s with links := s.linksAnswering p r } :=
    fun r ho => State.pointOfAction_ok harr (.inr rfl) ho
  have hslot := slot.isLt
  refine ⟨fun hbad => hexec _ ?_,
    fun hgood => ⟨tableReadPayload slot.toNat (entryAt s.table slot.toNat), hexec _ ?_, ?_⟩⟩
  · unfold tableReadOwner
    rw [if_pos hbad]
    rfl
  · unfold tableReadOwner
    rw [if_neg (Nat.not_le.mpr hgood)]
  unfold tableReadPayload
  cases entryAt s.table slot.toNat with
  | free =>
    refine ⟨rfl, (BitVec.toNat_ofNat _ _).trans (by omega), fun i hi => ?_⟩
    obtain ⟨j, rfl⟩ := Nat.exists_eq_add_of_le' hi
    change ((List.replicate 17 (0 : Byte)).getD j 0).toNat = 0
    rw [List.getD_eq_getElem?_getD, List.getElem?_replicate]
    split <;> rfl
  | staged f m =>
    obtain ⟨hlen, h0, h1, h2, h4, h7, h8, h9, h11, h13, h14, h16, h17⟩ :=
      entryPayload_fields (code := 1) (born := 0) (count := fillCount m) (f := f) (mark := false) hslot (by decide)
    exact ⟨hlen, h0, h1, h2, h4, h7, h8, h9, h11, h13.trans (by cases f.origin <;> rfl), h14, h16, h17⟩
  | live f born mark =>
    obtain ⟨hlen, h0, h1, h2, h4, h7, h8, h9, h11, h13, h14, h16, h17⟩ :=
      entryPayload_fields (code := 2) (born := born) (count := 0) (f := f) (mark := mark) hslot (by decide)
    exact ⟨hlen, h0, h1, h2, h4, h7, h8, h9, h11, h13.trans (by cases f.origin <;> rfl), h14, h16, h17⟩
  | retiring f born =>
    obtain ⟨hlen, h0, h1, h2, h4, h7, h8, h9, h11, h13, h14, h16, h17⟩ :=
      entryPayload_fields (code := 3) (born := born) (count := 0) (f := f) (mark := false) hslot (by decide)
    exact ⟨hlen, h0, h1, h2, h4, h7, h8, h9, h11, h13.trans (by cases f.origin <;> rfl), h14, h16, h17⟩

/-! ### ADD (R118, R119) -/

/-- First fit finds the first extent that is long enough (R27). -/
theorem firstFit_append {n : Nat} {before after : List Extent} {x : Extent} (hb : ∀ e ∈ before, e.length < n)
    (hx : n ≤ x.length) : firstFit n (before ++ x :: after) = some x.start := by
  induction before with
  | nil => simp [firstFit, hx]
  | cons e es ih =>
    simp only [List.mem_cons, forall_eq_or_imp] at hb
    simp [firstFit, Nat.not_le.mpr hb.1, ih hb.2]

/-- Values in range (R118 step 2). -/
theorem addBadArg_eq_false {line length scope : Nat} (hlow : 1 ≤ length) (hhigh : length ≤ 64)
    (hline : line + length ≤ 524288) (hscope : scope < 16) (hscope' : scope ≠ 0) :
    addBadArg line length scope = false := by
  simp only [addBadArg, Config.maxLength, Config.physicalLines, Bool.or_eq_false_iff, decide_eq_false_iff_not]
  omega

/-- An ADD from the owner that passes every check (R118, R119). -/
theorem addBody_stage {p : Port} {tag sum : BitVec 16} {line length slot first : Nat} {scope : Byte} {s : State}
    (hargs : addBadArg line length scope.toNat = false) (hroom : s.ops.length < Config.maxOps)
    (hclear : overlaps s.table line length (scope.setWidth 4) = false) (hslot : lowestFree s.table = some slot)
    (hfit : firstFit length s.store.freeList = some first) : addBody p tag line length scope sum s =
      (s.stage slot ⟨tag, line, length, scope.setWidth 4, first, .port p, sum⟩, ⟨.ok, field1 slot⟩) := by
  unfold addBody
  rw [hargs, hclear, hslot, hfit]
  simp [Nat.not_le.mpr hroom]

/-- Settles O27: the checks pass, and the stage takes the first fit. -/
theorem addStagesEntry : Obligations.AddStagesEntry := by
  rintro p tag line length scope sum s ses slot before after x harr hready hses rfl hlow hhigh hline hscope hscope' hroom
    hclear hslot hfree hbelow hlist hbefore hx
  have hargs : addBadArg line.toNat length.toNat scope.toNat = false :=
    addBadArg_eq_false hlow hhigh hline hscope fun h => hscope' (BitVec.eq_of_toNat_eq h)
  have hbody := addBody_stage (p := ses.owner) (tag := tag) (sum := sum) (s := s.restartIdle ses.owner) hargs
    (by rw [(s.restartIdle_agrees _).ops, State.ops_of_session hses]; exact hroom) (by simpa using hclear)
    (by simpa using lowestFree_eq hslot hfree hbelow)
    (by simpa [hlist] using firstFit_append (after := after) hbefore hx)
  have howner : addOwner ses.owner tag line.toNat length.toNat scope sum s
      = .ok (addBody ses.owner tag line.toNat length.toNat scope sum (s.restartIdle ses.owner)) :=
    if_pos (State.isOwner_iff.mpr ⟨ses, hses, rfl⟩)
  refine (State.pointOfAction_ok harr (.inl hready) (howner.trans (congrArg Except.ok hbody))).trans ?_
  rw [State.restartIdle_owner hses rfl]
  simp [State.stage, State.putTable, State.putStore, State.putOps, State.putEdit, State.ops, State.respond,
    State.putLink, State.putLinks, Store.take, hlist, takeFirstFit_append hbefore hx, State.linksAnswering, HostLink.answer,
    field1]

/-! ### COMMIT (R91 to R93, R113, R124, R127) -/

section
variable {s t : State} {p : Port} {ses : Session}

/-- A state is its fields. -/
theorem State.ext_fields (hstreams : s.streams = t.streams) (hxmc : s.xmc = t.xmc) (htable : s.table = t.table)
    (hstore : s.store = t.store) (hgen : s.gen = t.gen) (hedit : s.edit = t.edit) (hloader : s.loader = t.loader)
    (hnotices : s.notices = t.notices) (hlinks : s.links = t.links) (hreset : s.inReset = t.inReset)
    (hpending : s.pending = t.pending) : s = t := by
  cases s
  cases t
  simp_all

/-- The store after a commit step: the marked entries' extents return when no port is bound to C (R92, R93). -/
theorem State.commitStep_store (s : State) : s.commitStep.store =
    if s.currentIsBound then s.store else s.store.giveBack (extentsWhere Entry.isMarked s.table) := by
  unfold State.commitStep
  dsimp only
  split <;> simp

/-- The ADD ops pass when each names a STAGED entry whose map is complete and whose sum is right (R126). -/
theorem checkOps_eq_none {tbl : List Entry} {st : Store} {ops : List Op}
    (h : ∀ j, Op.add j ∈ ops → ∃ f m, entryAt tbl j = .staged f m ∧ m.length = f.length ∧
      st.contentSum f.storeLine f.length = f.contentSum) : checkOps tbl st ops = none := by
  refine List.findSome?_eq_none_iff.mpr fun op hop => ?_
  cases op with
  | remove slot => rfl
  | add slot =>
    obtain ⟨f, m, hentry, hcount, hsum⟩ := h slot hop
    simp [checkOp, hentry, fillCount, hcount, hsum]

/-- A COMMIT from the owner takes the answer of its body on the state whose idle timer it restarted (R115). -/
theorem exec_commit_owner (harr : s.arrived p .commit []) (hready : s.loader.ready = true)
    (hses : s.edit.session = some ses) (ho : ses.owner = p) (htable : tableInStore s.table = true) {s' : State}
    {r : Response} (hbody : commitBody (s.restartIdle p) = (s', r)) : exec (.commit p) s = .next (s'.respond p r) := by
  refine State.pointOfAction_ok (owner := commitOwner p) harr (.inl hready) ?_
  unfold commitOwner
  rw [if_pos (State.isOwner_iff.mpr ⟨ses, hses, ho⟩), htable, hbody]
  rfl

/-- A COMMIT of an empty op list (R124). -/
theorem commitBody_of_empty (hops : s.ops = []) : commitBody s = (s.endSession, ⟨.ok, field2 s.gen.current⟩) :=
  if_pos hops

/-- A COMMIT that passes (R125 to R127). -/
theorem commitBody_of_pass (hops : s.ops ≠ []) (hsup : s.gen.superseded = none)
    (hpass : checkOps s.table s.store s.ops = none) :
    commitBody s = (s.commitStep.endSession, ⟨.ok, field2 (nextGeneration s.gen.current)⟩) := by
  unfold commitBody
  rw [if_neg hops, hsup, hpass]
  rfl

/-- Generation control after a COMMIT that passes (R92, R93). -/
def State.committedGen (s : State) : GenControl :=
  if s.currentIsBound then
    ⟨nextGeneration s.gen.current, some s.gen.current, s.gen.bindings, some ⟨0, s.loader.defaults.drainLimit⟩⟩
  else ⟨nextGeneration s.gen.current, s.gen.superseded, s.gen.bindings, s.gen.drainTimer⟩

theorem State.committedGen_current (s : State) : s.committedGen.current = nextGeneration s.gen.current := by
  unfold State.committedGen
  split <;> rfl

theorem State.committedGen_bindings (s : State) : s.committedGen.bindings = s.gen.bindings := by
  unfold State.committedGen
  split <;> rfl

/-- The state after a COMMIT that passes, its notices aside (R91 to R93, R113, R127). -/
theorem exec_commit_pass (harr : s.arrived p .commit []) (hready : s.loader.ready = true)
    (hses : s.edit.session = some ses) (ho : ses.owner = p) (hinside : tableInStore s.table = true)
    (hops : ses.ops ≠ []) (hsup : s.gen.superseded = none) (hpass : checkOps s.table s.store ses.ops = none) :
    ∃ units, exec (.commit p) s = .next { s with
      table := s.table.map (Entry.commit s.gen.current (nextGeneration s.gen.current) s.currentIsBound)
      store := if s.currentIsBound then s.store else s.store.giveBack (extentsWhere Entry.isMarked s.table)
      gen := s.committedGen
      edit := handedOver s.edit.claimQueue s.loader.defaults.idleLimit
      notices := units
      links := s.linksAnswering p ⟨.ok, field2 s.committedGen.current⟩ } := by
  have hagrees := s.restartIdle_agrees p
  have hops' : (s.restartIdle p).ops = ses.ops := hagrees.ops.trans (State.ops_of_session hses)
  have hbody := commitBody_of_pass (s := s.restartIdle p) (by rwa [hops']) (by simpa using hsup)
    (by simpa [hops'] using hpass)
  have hbound : (s.restartIdle p).currentIsBound = s.currentIsBound := by simp [State.currentIsBound]
  refine ⟨(s.restartIdle p).commitStep.endSession.notices,
    (exec_commit_owner harr hready hses ho hinside hbody).trans (congrArg _ ?_)⟩
  apply State.ext_fields
  case hnotices => simp
  case hlinks => simp [State.respond_links, State.linksAnswering, State.committedGen_current]
  all_goals simp [State.commitStep_table, State.commitStep_store, State.commitStep_gen, State.committedGen,
    State.endSession_effect, hbound, hagrees.queue]

end

/-- Settles O35, from the state after an empty COMMIT and after one that passes. -/
theorem commitAppliesTheOpList : Obligations.CommitAppliesTheOpList := by
  rintro p s ses harr hready hses ho hinside
  refine ⟨fun hempty => ?_, fun hops hsup hpass => ?_⟩
  · have hops : (s.restartIdle p).ops = [] :=
      (s.restartIdle_agrees p).ops.trans ((State.ops_of_session hses).trans hempty)
    rw [exec_commit_owner harr hready hses ho hinside (commitBody_of_empty hops), State.endSession_effect,
      State.restartIdle_owner hses ho]
    rfl
  obtain ⟨units, hexec⟩ := exec_commit_pass harr hready hses ho hinside hops hsup (checkOps_eq_none hpass)
  have hentry : ∀ i, entryAt (s.table.map (Entry.commit s.gen.current (nextGeneration s.gen.current) s.currentIsBound)) i
      = (entryAt s.table i).commit s.gen.current (nextGeneration s.gen.current) s.currentIsBound :=
    entryAt_map _ rfl _
  refine ⟨_, hexec, State.ext_fields rfl rfl rfl ?_ rfl rfl rfl rfl rfl rfl rfl, s.committedGen_current,
    s.committedGen_bindings, by simp, fun i f m h => ?_, fun i f b h => ?_, fun i h => ?_, fun hany => ?_, fun hall => ?_⟩
  · dsimp only
    split <;> rfl
  · rw [hentry, h, s.committedGen_current]
    rfl
  · rw [hentry, h, s.committedGen_current]
    rfl
  · rw [hentry, h]
    rfl
  · have hbound := State.currentIsBound_iff.mpr hany
    refine ⟨?_, ?_, if_pos hbound, fun i f b h => ?_⟩
    · simp [State.committedGen, hbound]
    · simp [State.committedGen, hbound]
    · rw [hentry, h, s.committedGen_current, hbound]
      rfl
  · have hbound : s.currentIsBound = false := by
      rw [← Bool.not_eq_true, State.currentIsBound_iff]
      exact fun ⟨q, hq⟩ => hall q hq
    have hfree : (if s.currentIsBound then s.store else s.store.giveBack (extentsWhere Entry.isMarked s.table)).freeList
        = insertExtents (extentsWhere Entry.isMarked s.table) s.store.freeList := by
      rw [hbound]
      rfl
    refine ⟨?_, ?_, hfree, ?_, fun i f b h => ?_⟩
    · simp [State.committedGen, hbound, hsup]
    · simp [State.committedGen, hbound]
    · exact (congrArg freeTotal hfree).trans (freeTotal_insertExtents _ _)
    · rw [hentry, h, hbound]
      rfl

/-! ## The drain expiry (R100) -/

section
variable (s : State) (g : Nat) (p q : Port)

/-- The expiry closes the stream of a port bound to S and no other (R57, R100 step 1). -/
theorem State.expirePort_streams : (s.expirePort g p).streams.get q =
    if q = p ∧ s.gen.bindings.get q = some g then
      ⟨.stale (s.streams.get q).counter, 0, ⟨.empty, .empty⟩, (s.streams.get q).delivery, (s.streams.get q).settings⟩
    else s.streams.get q := by
  unfold State.expirePort
  by_cases hq : q = p
  · subst hq
    by_cases h : s.gen.bindings.get q = some g <;> simp [h, State.closeStale_streams]
  · by_cases h : s.gen.bindings.get p = some g <;> simp [h, hq, State.closeStale_streams]

/-- It hands STREAM_STALE to that port (R100 step 3). -/
theorem State.expirePort_notices : (s.expirePort g p).notices.get q =
    if q = p ∧ s.gen.bindings.get q = some g then
      (s.notices.get q).given (.streamStale g (s.streams.get q).counter)
    else s.notices.get q := by
  unfold State.expirePort
  by_cases hq : q = p
  · subst hq
    by_cases h : s.gen.bindings.get q = some g <;> simp [h, State.hand_effect]
  · by_cases h : s.gen.bindings.get p = some g <;> simp [h, hq, State.hand_effect]

/-- The requests of that port leave the set (R75, R84). -/
theorem State.expirePort_slotRequest (k : SlotId) : (s.expirePort g p).xmc.slotRequest q k =
    if q = p ∧ s.gen.bindings.get q = some g then none else s.xmc.slotRequest q k := by
  unfold State.expirePort
  by_cases hq : q = p
  · subst hq
    by_cases h : s.gen.bindings.get q = some g <;> simp [h, State.closeStale_xmc, State.abandonBoth_slotRequest]
  · by_cases h : s.gen.bindings.get p = some g <;> simp [h, hq, State.closeStale_xmc, State.abandonBoth_slotRequest]

/-- A read in flight for a slot of a port of the list that is bound to `g` is orphaned (R76). -/
def Read.expired (ports : List Port) (bindings : PerPort (Option Nat)) (g : Nat) (r : Read) : Read :=
  match r.requester with
  | .slot p _ => if p ∈ ports ∧ bindings.get p = some g then { r with orphan := true } else r
  | .loader => r

theorem Read.expired_nil (bindings : PerPort (Option Nat)) (r : Read) : r.expired [] bindings g = r := by
  unfold Read.expired
  cases r.requester <;> simp

theorem State.expirePort_inFlight : (s.expirePort g p).xmc.inFlight
    = s.xmc.inFlight.map (Read.expired [p] s.gen.bindings g) := by
  unfold State.expirePort
  dsimp only
  split
  · rename_i h
    simp only [State.hand_frame, State.putGen_xmc, State.closeStale_xmc, State.abandonBoth_inFlight]
    congr 1
    funext r
    unfold Read.expired
    cases hr : r.requester with
    | loader => simp
    | slot q k =>
      by_cases hq : q = p
      · subst hq; cases k <;> simp [h]
      · simp [hq]
  · rename_i h
    have hid : Read.expired [p] s.gen.bindings g = id := by
      funext r
      unfold Read.expired
      cases r.requester with
      | loader => rfl
      | slot q k => simp +contextual [h]
    simp [hid]

/-- Ports expired one after the other orphan what they would at once: an expired port is bound to `g` no more. -/
theorem Read.expired_cons {ports : List Port} {bindings bindings' : PerPort (Option Nat)} {r : Read}
    (h : ∀ q, bindings'.get q = if q = p ∧ bindings.get q = some g then none else bindings.get q) :
    (r.expired [p] bindings g).expired ports bindings' g = r.expired (p :: ports) bindings g := by
  cases hr : r.requester with
  | loader => simp [Read.expired, hr]
  | slot q k =>
    by_cases hq : q = p
    · subst hq
      by_cases hb : bindings.get q = some g <;> simp [Read.expired, hr, h, hb]
    · simp [Read.expired, hr, h, hq]

theorem State.expireAll_inFlight (ports : List Port) :
    (ports.foldl (fun s p => s.expirePort g p) s).xmc.inFlight
      = s.xmc.inFlight.map (Read.expired ports s.gen.bindings g) := by
  induction ports generalizing s with
  | nil => simp [show Read.expired [] s.gen.bindings g = id from funext (Read.expired_nil g s.gen.bindings)]
  | cons p ports ih =>
    rw [List.foldl_cons, ih, State.expirePort_inFlight, Option.map_map]
    congr 1
    funext r
    exact Read.expired_cons g p fun q => s.expirePort_bindings g p q

/-! ### All four ports -/

theorem State.expireAll_streams : (allPorts.foldl (fun s p => s.expirePort g p) s).streams.get q =
    if s.gen.bindings.get q = some g then
      ⟨.stale (s.streams.get q).counter, 0, ⟨.empty, .empty⟩, (s.streams.get q).delivery, (s.streams.get q).settings⟩
    else s.streams.get q := by
  simp only [List.foldl_cons, List.foldl_nil]
  cases q <;> simp [State.expirePort_streams, State.expirePort_bindings]

theorem State.expireAll_notices : (allPorts.foldl (fun s p => s.expirePort g p) s).notices.get q =
    if s.gen.bindings.get q = some g then (s.notices.get q).given (.streamStale g (s.streams.get q).counter)
    else s.notices.get q := by
  simp only [List.foldl_cons, List.foldl_nil]
  cases q <;> simp [State.expirePort_notices, State.expirePort_bindings, State.expirePort_streams]

theorem State.expireAll_slotRequest (k : SlotId) :
    (allPorts.foldl (fun s p => s.expirePort g p) s).xmc.slotRequest q k =
      if s.gen.bindings.get q = some g then none else s.xmc.slotRequest q k := by
  simp only [List.foldl_cons, List.foldl_nil]
  cases q <;> simp [State.expirePort_slotRequest, State.expirePort_bindings]

/-- The loader's request, the pointer and the fault record stay (R84). -/
theorem State.expirePort_record : (s.expirePort g p).xmc.loaderRequest = s.xmc.loaderRequest ∧
    (s.expirePort g p).xmc.faults = s.xmc.faults ∧ (s.expirePort g p).xmc.lastFault = s.xmc.lastFault ∧
    (s.expirePort g p).xmc.pointer = s.xmc.pointer := by
  unfold State.expirePort
  dsimp only
  split <;> simp [State.closeStale_xmc]

theorem State.expireAll_record : let u := allPorts.foldl (fun s p => s.expirePort g p) s
    u.xmc.loaderRequest = s.xmc.loaderRequest ∧ u.xmc.faults = s.xmc.faults ∧ u.xmc.lastFault = s.xmc.lastFault ∧
      u.xmc.pointer = s.xmc.pointer := by
  simp [State.expirePort_record]

/-- The table, the store and every block but the streams, the bindings, the notices and the controller stay (R100). -/
theorem State.expireAll_frame : let u := allPorts.foldl (fun s p => s.expirePort g p) s
    u.table = s.table ∧ u.store = s.store ∧ u.gen.current = s.gen.current ∧ u.edit = s.edit ∧ u.loader = s.loader ∧
      u.links = s.links ∧ u.inReset = s.inReset ∧ u.pending = s.pending := by
  simp [State.expirePort_generations]

/-- No read serves a slot of an expired port (R76). -/
theorem Read.expired_orphan {ports : List Port} {bindings : PerPort (Option Nat)} {g : Nat} {p : Port} {k : SlotId}
    {r : Read} (hp : p ∈ ports) (hb : bindings.get p = some g)
    (hr : (r.expired ports bindings g).requester = .slot p k) : (r.expired ports bindings g).orphan = true := by
  have hsame : (r.expired ports bindings g).requester = r.requester := by
    unfold Read.expired
    (repeat' split) <;> rfl
  rw [hsame] at hr
  simp [Read.expired, hr, hb, hp]

/-- The drain expiry, once it is due (R100). -/
theorem exec_drainExpiry_due {s : State} {g : Nat} {d : Timer} (hsup : s.gen.superseded = some g)
    (htimer : s.gen.drainTimer = some d) (hdue : d.limit * 10 ≤ d.elapsed) :
    exec .drainExpiry s = .next (allPorts.foldl (fun s p => s.expirePort g p) s).drainEnd := by
  have hdue' : s.drainDue = some g := by simp [State.drainDue, hsup, htimer, Timer.due, Config.ticksPerUnit, hdue]
  change execDrainExpiry s = _
  unfold execDrainExpiry
  rw [hdue']

end

/-- Settles O42, from what the four expiries and the end of the drain make of each block. -/
theorem drainExpiryClosesStreams : Obligations.DrainExpiryClosesStreams := by
  intro s g d hsup htimer hdue
  refine ⟨_, exec_drainExpiry_due hsup htimer hdue, ?_⟩
  have hstreams := s.expireAll_streams g
  have hbindings := s.expireAll_bindings g
  have hnotices := s.expireAll_notices g
  have hrequests := s.expireAll_slotRequest g
  have hflight := s.expireAll_inFlight g allPorts
  obtain ⟨htable, hstore, hcurrent, hedit, hloader, hlinks, hreset, hpending⟩ := s.expireAll_frame g
  obtain ⟨hrequest, hfaults, hlast, hpointer⟩ := s.expireAll_record g
  generalize allPorts.foldl (fun s p => s.expirePort g p) s = u at *
  have hentries : u.drainEnd.table = s.table.map Entry.afterDrain := by
    rw [State.drainEnd_effect, ← htable]
    exact List.map_congr_left fun e _ => by cases e <;> rfl
  refine ⟨State.ext_fields rfl rfl hentries ?_ ?_ hedit hloader rfl hlinks hreset hpending, ?_, ?_,
    fun p hp => ⟨?_, ?_, ?_, fun k => ⟨?_, ?_⟩⟩, fun p hp => ⟨?_, ?_, ?_, fun k => ?_⟩, hrequest, ?_, hfaults, hlast,
    hpointer⟩
  · simp [State.drainEnd_effect, hstore]
  · simp [State.drainEnd_effect, hcurrent]
  · simp [State.drainEnd_effect, hstore, htable]
  · simp only [State.drainEnd_effect, hstore, htable]
    exact freeTotal_insertExtents _ _
  · exact (hstreams p).trans (if_pos hp)
  · exact (hbindings p).trans (if_pos hp)
  · exact (hnotices p).trans (if_pos hp)
  · exact (hrequests p k).trans (if_pos hp)
  · rintro l ⟨r, hr, hreq, horphan, -⟩
    obtain ⟨r', -, rfl⟩ := Option.map_eq_some_iff.mp (hflight.symm.trans hr)
    rw [Read.expired_orphan (mem_allPorts p) hp hreq] at horphan
    cases horphan
  · exact (hstreams p).trans (if_neg hp)
  · exact (hbindings p).trans (if_neg hp)
  · exact (hnotices p).trans (if_neg hp)
  · exact (hrequests p k).trans (if_neg hp)
  · refine hflight.trans (congrFun (congrArg _ (funext fun r => ?_)) _)
    unfold Read.expired
    cases r.requester with
    | loader => rfl
    | slot p k => simp only [mem_allPorts, true_and]

/-! ## Content lines of a load (R144, R145) -/

/-! ### The 32 bytes of a line (R71) -/

/-- Byte 2j is the low half of halfword j, byte 2j + 1 the high half (R71). -/
theorem byteAt_bytesOfHalfwords (hs : List Halfword) (j : Nat) :
    byteAt (bytesOfHalfwords hs) (2 * j) = (hs.getD j 0).toNat % 256 ∧
      byteAt (bytesOfHalfwords hs) (2 * j + 1) = (hs.getD j 0).toNat / 256 := by
  induction hs generalizing j with
  | nil => simp [bytesOfHalfwords, byteAt]
  | cons x xs ih =>
    cases j with
    | zero =>
      have hx := x.isLt
      have hlow : byteAt (bytesOfHalfwords (x :: xs)) 0 = (x.setWidth 8).toNat := rfl
      have hhigh : byteAt (bytesOfHalfwords (x :: xs)) 1 = ((x >>> 8).setWidth 8).toNat := rfl
      rw [Nat.mul_zero, Nat.zero_add, hlow, hhigh, List.getD_cons_zero, BitVec.toNat_setWidth, BitVec.toNat_setWidth,
        BitVec.toNat_ushiftRight, Nat.shiftRight_eq_div_pow]
      omega
    | succ j => exact ih j

/-- A list of bytes is its bytes as numbers. -/
theorem eq_of_byteAt {l l' : List Byte} (hlen : l.length = l'.length)
    (h : ∀ i, i < l.length → byteAt l i = byteAt l' i) : l = l' := by
  refine List.ext_getElem hlen fun i hi hi' => BitVec.eq_of_toNat_eq ?_
  simpa [byteAt, hi, hi'] using h i hi

/-- The halfwords of a read make the line they are said to give (R71). -/
theorem Read.gives.bytesOfHalfwords {r : Read} {xd : Halfword} {h : List Byte} (hgives : r.gives xd h) :
    bytesOfHalfwords (r.halfwords ++ [xd]) = h := by
  obtain ⟨hcount, hlen, hbytes⟩ := hgives
  refine eq_of_byteAt (by rw [length_bytesOfHalfwords, List.length_append, hcount, hlen]; rfl) fun i hi => ?_
  rw [length_bytesOfHalfwords, List.length_append, hcount, List.length_singleton] at hi
  have hj := hbytes (i / 2) (by omega)
  obtain ⟨hlow, hhigh⟩ := byteAt_bytesOfHalfwords (r.halfwords ++ [xd]) (i / 2)
  have hlt : ∀ k, byteAt h k < 256 := fun k => (h.getD k 0).isLt
  have hlt' := hlt (2 * (i / 2))
  rcases Nat.mod_two_eq_zero_or_one i with hi2 | hi2
  · have hi' : 2 * (i / 2) = i := by omega
    rw [hi'] at hj hlow hlt'
    rw [hlow]
    omega
  · have hi' : 2 * (i / 2) + 1 = i := by omega
    rw [hi'] at hj hhigh
    rw [hhigh]
    omega

/-! ### The copy -/

section
variable {s : State} {r : Read} {xd : Halfword} {h : List Byte} {d : DirRecord} {chosen i : Nat}

/-- The sixteenth access of the loader's read gives it the line (R71, R73). -/
theorem exec_accessCompletes_loader (hr : s.loaderReads r) (hgives : r.gives xd h) (hstore : s.loaderInStore = true) :
    exec (.accessCompletes xd) s = .next ((s.putXmc s.xmc.clearRead).loaderData h).grant := by
  obtain ⟨hflight, hreq, horphan⟩ := hr
  have hlen : ¬ (r.halfwords ++ [xd]).length < Config.accessesPerLine := by
    rw [List.length_append, hgives.1]
    exact Nat.lt_irrefl 16
  change execAccessCompletes xd s = _
  unfold execAccessCompletes
  rw [hflight]
  dsimp only
  rw [if_neg hlen, State.endReadOutsideStore_eq_false hstore, if_neg Bool.false_ne_true, hgives.bytesOfHalfwords,
    State.endRead_cases]
  simp [horphan, hreq]

/-- Every outcome of a content line leaves the store's bytes as the line's write made them (R144, R145). -/
theorem State.takeContent_byte (s : State) (d : DirRecord) (chosen i : Nat) (line : List Byte) :
    (s.takeContent d chosen i line).store.byte = (s.store.writeLine (chosen + i) line).byte := by
  rcases s.takeContent_agrees d chosen i line with ha | ⟨slot, -, ha⟩ <;> exact ha.byte

/-- Before the last content line the loader waits for the next (R144). -/
theorem State.takeContent_of_lt (line : List Byte) (hi : i + 1 < d.length) : s.takeContent d chosen i line =
    (s.putStore (s.store.writeLine (chosen + i) line)).loaderRead (.copy d chosen (i + 1)) (d.sourceLine + (i + 1)) :=
  if_pos hi

/-- After the last content line a wrong sum skips the record (R145, R146). -/
theorem State.takeContent_of_bad_sum (line : List Byte) (hi : i + 1 = d.length)
    (hsum : (s.store.writeLine (chosen + i) line).contentSum chosen d.length ≠ d.contentSum) :
    s.takeContent d chosen i line = (s.putStore (s.store.writeLine (chosen + i) line)).skipRecord .contentSum := by
  unfold State.takeContent
  rw [if_neg (by omega)]
  exact if_neg hsum

/-- After the last content line the right sum places the record (R145). -/
theorem State.takeContent_of_good_sum (line : List Byte) (hi : i + 1 = d.length)
    (hsum : (s.store.writeLine (chosen + i) line).contentSum chosen d.length = d.contentSum) :
    s.takeContent d chosen i line = (s.putStore (s.store.writeLine (chosen + i) line)).placeRecord d chosen := by
  unfold State.takeContent
  rw [if_neg (by omega)]
  exact if_pos hsum

/-- The content sum reads the store's bytes only (R35). -/
theorem Store.contentSum_congr {st st' : Store} (h : st'.byte = st.byte) (first n : Nat) :
    st'.contentSum first n = st.contentSum first n := by
  simp [Store.contentSum, Store.readLine, h]

/-- Every outcome of a content line keeps the content as the line's write made it. -/
theorem State.takeContent_content (s : State) (d : DirRecord) (chosen i : Nat) (line : List Byte) :
    (s.takeContent d chosen i line).store.content = (s.store.writeLine (chosen + i) line).content := by
  unfold State.takeContent State.placeRecord
  dsimp only
  (repeat' split) <;> simp

/-- A skip as the report's change and the turn to the next record (R146). -/
theorem State.skipRecord_eq (s : State) (cause : SkipCause) : s.skipRecord cause =
    (s.putLoader { s.loader with report := s.loader.report.withSkip s.loader.recordIndex cause }).beginRecord
      (s.loader.recordIndex + 1) := by
  simp [State.skipRecord, LoadReport.withSkip]

/-- A placement as the table's and the store's change and the turn to the next record (R145). -/
theorem State.placeRecord_of_free {slot : Nat} (hslot : lowestFree s.table = some slot) : s.placeRecord d chosen =
    (((s.putTable (s.table.set slot (.live (d.entry chosen) 1 false))).putStore (s.store.take d.length)).putLoader
      { s.loader with report := { s.loader.report with placed := s.loader.report.placed + 1 } }).beginRecord
        (s.loader.recordIndex + 1) := by
  unfold State.placeRecord
  rw [hslot]

/-- The controller is no part of the state that `recordDone` speaks of: it is given beside it. -/
theorem State.recordDone_putXmc {defaults : Defaults} {report : LoadReport} {x y : Xmc} {t : State} :
    (s.putXmc y).recordDone defaults report x t ↔ s.recordDone defaults report x t := Iff.rfl

end

/-- Settles O48: the line is written, and the copy goes on, places the record or skips it. -/
theorem contentLinesAreCopiedAndDecide : Obligations.ContentLinesAreCopiedAndDecide := by
  intro s r xd h d chosen i hr hstep hgives hi hchosen
  have hstore : s.loaderInStore = true := by simp [State.loaderInStore, hstep, Config.storeLines, hi, hchosen]
  have hdata : ∀ x, (s.putXmc x).loaderData h = (s.putXmc x).takeContent d chosen i h := fun x => by
    simp [State.loaderData, hstep]
  have hlen : h.length = 32 := hgives.2.1
  refine ⟨_, (exec_accessCompletes_loader hr hgives hstore).trans (by rw [hdata]), ?_⟩
  generalize ht : ((s.putXmc s.xmc.clearRead).takeContent d chosen i h).grant = t
  have hbyte : t.store.byte = (s.store.writeLine (chosen + i) h).byte := by
    rw [← ht]
    exact congrArg _ (State.grant_frame _).2.2.1 |>.trans (State.takeContent_byte _ d chosen i h)
  have hcontent : t.store.content = (s.store.writeLine (chosen + i) h).content := by
    rw [← ht]
    simp [State.takeContent_content]
  have hsum : t.store.contentSum chosen d.length = (s.store.writeLine (chosen + i) h).contentSum chosen d.length :=
    Store.contentSum_congr hbyte _ _
  have hwritten : (⟨s.store.freeList, t.store.content, s.store.epoch⟩ : Store) = s.store.writeLine (chosen + i) h := by
    rw [hcontent]
    rfl
  refine ⟨fun j hj => ?_, fun n j hj hn => ?_, fun hnext => ?_,
    fun defaults hlast hpending hheader => ⟨?_, fun hbad => ?_⟩⟩
  · rw [hbyte, Store.byte_writeLine_same (by omega)]
    simp [hlen, hj]
  · rw [hbyte, Store.byte_writeLine_other hn hj (by simp [hlen, Config.lineBytes])]
  · rw [hwritten, ← ht, State.takeContent_of_lt h hnext]
    exact ⟨rfl, Xmc.grant_loader
      (x := { s.xmc with inFlight := none, loaderRequest := some ⟨d.sourceLine + (i + 1), 0, 0⟩ }) s.roles rfl rfl⟩
  · intro before x after slot hgood hlist hbefore hx hstart hslot hfree hbelow
    have htaken : (s.store.writeLine (chosen + i) h).take d.length = ⟨before ++ (if x.length = d.length then after
        else ⟨x.start + d.length, x.length - d.length⟩ :: after), t.store.content, s.store.epoch⟩ := by
      rw [← takeFirstFit_append hbefore hx, ← hlist, hcontent]
      rfl
    have hlow : lowestFree s.table = some slot := lowestFree_eq hslot hfree hbelow
    rw [← htaken, ← ht, State.takeContent_of_good_sum h hlast (hsum ▸ hgood), State.putXmc_store,
      State.placeRecord_of_free (s := (s.putXmc s.xmc.clearRead).putStore (s.store.writeLine (chosen + i) h)) hlow]
    exact State.recordDone_putXmc.mp (State.recordDone_of_beginRecord
      (((s.putXmc s.xmc.clearRead).putTable (s.table.set slot (.live (d.entry chosen) 1 false))).putStore
        ((s.store.writeLine (chosen + i) h).take d.length)) rfl hpending hheader)
  · rw [hwritten, ← ht, State.takeContent_of_bad_sum h hlast (hsum ▸ hbad), State.skipRecord_eq]
    exact State.recordDone_putXmc.mp (State.recordDone_of_beginRecord
      ((s.putXmc s.xmc.clearRead).putStore (s.store.writeLine (chosen + i) h)) rfl hpending hheader)

end Sys2Proof.Machine

namespace Sys2Proof.Machine

/-! ## The overlay store: content sums, the free extent list, and who owns its lines (file 02) -/

/-! ### The content sum (R35) -/

/-- The halfwords of an even number of bytes, byte 2k the low one and byte 2k + 1 the high one of halfword k (R35). -/
theorem halfwordsOf_map_range (f : Nat → Byte) (m : Nat) :
    halfwordsOf ((List.range (2 * m)).map f) = (List.range m).map (fun k => .ofBytes (f (2 * k)) (f (2 * k + 1))) := by
  induction m generalizing f with
  | zero => rfl
  | succ m ih =>
    have := ih (fun i => f (i + 2))
    simp only [Nat.mul_succ, List.range_succ_eq_map, List.map_cons, List.map_map, halfwordsOf] at *
    exact congrArg _ this

/-- A halfword as a number: its low byte and 256 times its high byte (00 Conventions). -/
theorem Halfword.toNat_ofBytes (lo hi : Byte) : (Halfword.ofBytes lo hi).toNat = lo.toNat + 256 * hi.toNat := by
  rw [BitVec.toNat_append, ← Nat.shiftLeft_add_eq_or_of_lt lo.isLt, Nat.shiftLeft_eq]
  omega

/-- A sum of 16-bit words is their sum as numbers, modulo 65536. -/
theorem toNat_sum_words (l : List (BitVec 16)) : l.sum.toNat = (l.map BitVec.toNat).sum % 65536 := by
  induction l with
  | nil => rfl
  | cons a l ih => simp [BitVec.toNat_add, ih]

/-- The halfword sum of one store line, modulo 65536 (R35). -/
theorem Store.toNat_halfwordSum_readLine (st : Store) (n : Nat) : (halfwordSum (st.readLine n)).toNat =
    ((List.range 16).map (fun k => (st.byte n (2 * k)).toNat + 256 * (st.byte n (2 * k + 1)).toNat)).sum % 65536 := by
  have hline : st.readLine n = (List.range (2 * 16)).map (st.byte n) := rfl
  rw [halfwordSum, hline, halfwordsOf_map_range, toNat_sum_words, List.map_map]
  simp only [Function.comp_def, Halfword.toNat_ofBytes]

/-- Settles O31, line by line. -/
theorem contentSumAddsHalfwords : Obligations.ContentSumAddsHalfwords := by
  intro st first n
  rw [Store.contentSum, toNat_sum_words, List.map_map]
  simp only [Function.comp_def, Store.toNat_halfwordSum_readLine]
  conv_rhs => rw [List.sum_nat_mod, List.map_map]
  rfl

/-! ### A returned extent (R29) -/

section
variable {x e : Extent} {l : List Extent}

/-- An extent that is returned passes the extents that end below it. -/
theorem insertExtent_append {below : List Extent} (h : ∀ e ∈ below, e.start + e.length < x.start) (l : List Extent) :
    insertExtent x (below ++ l) = below ++ insertExtent x l := by
  induction below with
  | nil => rfl
  | cons e es ih =>
    rw [List.forall_mem_cons] at h
    have hstart : ¬ x.start < e.start := by omega
    have htouch : e.start + e.length ≠ x.start := by omega
    simp only [List.cons_append, insertExtent, if_neg hstart, if_neg htouch, ih h.2]

end

/-- Settles O50: the extent passes those below it, and the extents it then meets decide among the four cases. -/
theorem returnedExtentMerges : Obligations.ReturnedExtentMerges := by
  intro below above x lo hi hx hbelow habove hbelow' habove' hlo
  refine ⟨?_, fun hl => ?_, fun hh => ?_, fun hl hh => ?_⟩
  · rw [insertExtent_append hbelow]
    cases above with
    | nil => rfl
    | cons e es =>
      have := habove e List.mem_cons_self
      simp only [insertExtent]
      rw [if_pos (by omega), if_neg (by omega)]
  · rw [insertExtent_append hbelow]
    cases above with
    | nil => simp only [insertExtent, if_pos hl]; rw [if_neg (by omega)]
    | cons e es =>
      have := habove e List.mem_cons_self
      simp only [insertExtent, if_pos hl]
      rw [if_neg (by omega), if_neg (by omega)]
  · rw [insertExtent_append hbelow]
    simp only [insertExtent, if_pos hh]
    rw [if_pos (by omega)]
  · rw [insertExtent_append hbelow]
    simp only [insertExtent, if_pos hl, if_pos hh]
    rw [if_neg (by omega)]

end Sys2Proof.Machine

/-! ## Who owns the store's lines (R24, R25, R2) -/

namespace Sys2Proof.Machine

/-! ### How often a list of extents holds a store line -/

section
variable {x e : Extent} {l l' : List Extent} {n first : Nat}

/-- How many extents of a list hold store line `n`. -/
def lineCount (l : List Extent) (n : Nat) : Nat := l.countP (fun x => x.holds n)

@[simp] theorem lineCount_nil (n : Nat) : lineCount [] n = 0 := rfl

theorem lineCount_cons (x : Extent) (l : List Extent) (n : Nat) :
    lineCount (x :: l) n = lineCount l n + if x.start ≤ n ∧ n < x.start + x.length then 1 else 0 := by
  simp [lineCount, List.countP_cons, Extent.holds]

theorem lineCount_append (l l' : List Extent) (n : Nat) : lineCount (l ++ l') n = lineCount l n + lineCount l' n :=
  List.countP_append

/-- A line that an extent of the list holds is counted. -/
theorem one_le_lineCount (hx : x ∈ l) (hlow : x.start ≤ n) (hhigh : n < x.start + x.length) : 1 ≤ lineCount l n :=
  one_le_countP_holds hx (by simp [Extent.holds, hlow, hhigh])

/-- A counted line is held by an extent of the list. -/
theorem exists_of_one_le_lineCount (h : 1 ≤ lineCount l n) : ∃ e ∈ l, e.start ≤ n ∧ n < e.start + e.length := by
  obtain ⟨e, he, hn⟩ := List.countP_pos_iff.mp h
  exact ⟨e, he, by simpa [Extent.holds] using hn⟩

/-- Where no line is held twice, an extent ends at or below the start of any other, or the other way round. -/
theorem apart_of_lineCount (h : ∀ n, lineCount (x :: l) n ≤ 1) (he : e ∈ l) (hx : 1 ≤ x.length) (hlen : 1 ≤ e.length) :
    x.start + x.length ≤ e.start ∨ e.start + e.length ≤ x.start := by
  by_contra hmeet
  have htwice := h (max x.start e.start)
  rw [lineCount_cons, if_pos (by omega)] at htwice
  have := one_le_lineCount he (n := max x.start e.start) (by omega) (by omega)
  omega

/-! ### The order of the free extent list (R25) -/

/-- The order of R25, one extent at a time: no extent is empty, and each ends below the start of all that follow. -/
theorem freeListSorted_cons :
    freeListSorted (e :: l) ↔ 1 ≤ e.length ∧ (∀ f ∈ l, e.start + e.length < f.start) ∧ freeListSorted l := by
  induction l generalizing e with
  | nil => simp [freeListSorted]
  | cons f l ih =>
    refine and_congr_right fun _ => ?_
    rw [List.forall_mem_cons, and_assoc]
    refine and_congr_right fun hef => ⟨fun h => ⟨fun g hg => ?_, h⟩, And.right⟩
    have := (ih.mp h).2.1 g hg
    omega

theorem freeListSorted.one_le (h : freeListSorted l) (he : e ∈ l) : 1 ≤ e.length := by
  induction l with
  | nil => cases he
  | cons f l ih =>
    obtain ⟨hf, -, hl⟩ := freeListSorted_cons.mp h
    rcases List.mem_cons.mp he with rfl | he
    · exact hf
    · exact ih hl he

/-! ### Returning lines (R29, R30) -/

/-- A returned extent's lines join those of the list, merged or not (R29). -/
theorem lineCount_insertExtent (x : Extent) (l : List Extent) (n : Nat) :
    lineCount (insertExtent x l) n = lineCount (x :: l) n := by
  induction l with
  | nil => rfl
  | cons e l ih =>
    unfold insertExtent
    split
    · split
      · simp only [lineCount_cons]; split_ifs <;> omega
      · rfl
    split
    · split
      · simp only [lineCount_cons]; split_ifs <;> omega
      · split <;> simp only [lineCount_cons] <;> split_ifs <;> omega
    · rw [lineCount_cons, ih, lineCount_cons, lineCount_cons, lineCount_cons]
      omega

/-- A returned extent that shares no line with the list keeps its order (R25, R29). -/
theorem freeListSorted.insertExtent (h : freeListSorted l) (hx : 1 ≤ x.length)
    (honce : ∀ n, lineCount (x :: l) n ≤ 1) : freeListSorted (insertExtent x l) := by
  induction l with
  | nil => exact hx
  | cons e l ih =>
    obtain ⟨he, hel, hl⟩ := freeListSorted_cons.mp h
    have hapart := apart_of_lineCount honce List.mem_cons_self hx he
    have hrest : ∀ n, lineCount (x :: l) n ≤ 1 := fun n => by
      have := honce n
      simp only [lineCount_cons] at *
      omega
    unfold Machine.insertExtent
    split
    · split
      · exact freeListSorted_cons.mpr ⟨by dsimp only; omega, fun f hf => by have := hel f hf; dsimp only; omega, hl⟩
      · refine freeListSorted_cons.mpr ⟨hx, List.forall_mem_cons.mpr ⟨by omega, fun f hf => ?_⟩, h⟩
        have := hel f hf
        omega
    split
    · split
      · simp [freeListSorted]; omega
      · rename_i f fs
        obtain ⟨hf, hffs, hfs⟩ := freeListSorted_cons.mp hl
        have hef := hel f List.mem_cons_self
        have hapart' := apart_of_lineCount hrest List.mem_cons_self hx hf
        split
        · exact freeListSorted_cons.mpr ⟨by dsimp only; omega, fun g hg => by have := hffs g hg; dsimp only; omega, hfs⟩
        · refine freeListSorted_cons.mpr
            ⟨by dsimp only; omega, List.forall_mem_cons.mpr ⟨by dsimp only; omega, fun g hg => ?_⟩, hl⟩
          have := hffs g hg
          dsimp only
          omega
    · refine freeListSorted_cons.mpr ⟨he, fun f hf => ?_, ih hl hrest⟩
      have hlen := (ih hl hrest).one_le hf
      have hheld := one_le_lineCount hf (le_refl _) (by omega)
      rw [lineCount_insertExtent] at hheld
      obtain ⟨g, hg, hstart, -⟩ := exists_of_one_le_lineCount hheld
      rcases List.mem_cons.mp hg with rfl | hg
      · omega
      · have := hel g hg
        omega

/-- Several returned extents that share no line with the list or each other keep its order, and their lines join it (R30). -/
theorem freeListSorted.insertExtents {xs : List Extent} (h : freeListSorted l) (hxs : ∀ x ∈ xs, 1 ≤ x.length)
    (honce : ∀ n, lineCount xs n + lineCount l n ≤ 1) :
    freeListSorted (insertExtents xs l) ∧ ∀ n, lineCount (insertExtents xs l) n = lineCount xs n + lineCount l n := by
  induction xs generalizing l with
  | nil => exact ⟨h, fun n => (Nat.zero_add _).symm⟩
  | cons x xs ih =>
    obtain ⟨hx, hxs⟩ := List.forall_mem_cons.mp hxs
    have hcount : ∀ n, lineCount xs n + lineCount (Machine.insertExtent x l) n = lineCount (x :: xs) n + lineCount l n :=
      fun n => by
        rw [lineCount_insertExtent]
        simp only [lineCount_cons]
        omega
    have hfirst := h.insertExtent hx fun n => by
      have := honce n
      simp only [lineCount_cons] at *
      omega
    obtain ⟨hsorted, hlines⟩ := ih hfirst hxs fun n => (hcount n).trans_le (honce n)
    exact ⟨hsorted, fun n => (hlines n).trans (hcount n)⟩

/-! ### Taking lines (R27) -/

/-- First fit takes its lines out of the list (R27). -/
theorem lineCount_takeFirstFit {m : Nat} (h : firstFit m l = some first) (n : Nat) :
    lineCount (⟨first, m⟩ :: takeFirstFit m l) n = lineCount l n := by
  induction l with
  | nil => cases h
  | cons e l ih =>
    unfold firstFit at h
    unfold takeFirstFit
    split at h
    · rename_i hm
      cases h
      rw [if_pos hm]
      split <;> simp only [lineCount_cons] <;> split_ifs <;> omega
    · rename_i hm
      have := ih h
      rw [if_neg hm]
      simp only [lineCount_cons] at *
      omega

/-- First fit keeps the list's order (R25, R27). -/
theorem freeListSorted.takeFirstFit (h : freeListSorted l) {m : Nat} (hfit : firstFit m l = some first) :
    freeListSorted (takeFirstFit m l) := by
  induction l with
  | nil => exact h
  | cons e l ih =>
    obtain ⟨he, hel, hl⟩ := freeListSorted_cons.mp h
    unfold firstFit at hfit
    unfold Machine.takeFirstFit
    split at hfit
    · rename_i hm
      rw [if_pos hm]
      split
      · exact hl
      · refine freeListSorted_cons.mpr ⟨by dsimp only; omega, fun f hf => ?_, hl⟩
        have := hel f hf
        dsimp only
        omega
    · rename_i hm
      rw [if_neg hm]
      refine freeListSorted_cons.mpr ⟨he, fun f hf => ?_, ih hl hfit⟩
      have hlen := (ih hl hfit).one_le hf
      have hheld := one_le_lineCount (List.mem_cons_of_mem ⟨first, m⟩ hf) (le_refl _) (by omega)
      rw [lineCount_takeFirstFit hfit] at hheld
      obtain ⟨g, hg, hstart, -⟩ := exists_of_one_le_lineCount hheld
      have := hel g hg
      omega

end

end Sys2Proof.Machine

namespace Sys2Proof.Machine

/-! ### The extents of the entries -/

section
variable {s t : State} {tbl : List Entry} {n : Nat}

theorem entryExtents_cons (e : Entry) (tbl : List Entry) :
    entryExtents (e :: tbl) = e.extent?.toList ++ entryExtents tbl := by
  unfold entryExtents
  cases h : e.extent? <;> simp [h]

theorem extentsWhere_cons (which : Entry → Bool) (e : Entry) (tbl : List Entry) :
    extentsWhere which (e :: tbl) = (if which e then e.extent?.toList else []) ++ extentsWhere which tbl := by
  unfold extentsWhere
  rw [List.filter_cons]
  split
  · exact entryExtents_cons e _
  · rfl

/-- The entry of one slot replaced: its old extent leaves and its new one joins. -/
theorem lineCount_entryExtents_set {slot : Nat} (hslot : slot < tbl.length) (e : Entry) (n : Nat) :
    lineCount (entryExtents (tbl.set slot e)) n + lineCount (entryAt tbl slot).extent?.toList n
      = lineCount (entryExtents tbl) n + lineCount e.extent?.toList n := by
  induction tbl generalizing slot with
  | nil => cases hslot
  | cons e' tbl ih =>
    cases slot with
    | zero =>
      have hhead : entryAt (e' :: tbl) 0 = e' := rfl
      simp only [hhead, List.set_cons_zero, entryExtents_cons, lineCount_append]
      omega
    | succ slot =>
      have htail : entryAt (e' :: tbl) (slot + 1) = entryAt tbl slot := rfl
      have := ih (Nat.lt_of_succ_lt_succ hslot)
      simp only [htail, List.set_cons_succ, entryExtents_cons, lineCount_append]
      omega

/-- A change of all entries that frees the selected ones and leaves the fields of the others (R13, R30). -/
theorem lineCount_entryExtents_map {which : Entry → Bool} {change : Entry → Entry}
    (hchange : ∀ e, (change e).fields? = if which e then none else e.fields?) (tbl : List Entry) (n : Nat) :
    lineCount (entryExtents (tbl.map change)) n + lineCount (extentsWhere which tbl) n
      = lineCount (entryExtents tbl) n := by
  induction tbl with
  | nil => rfl
  | cons e tbl ih =>
    have hextent : (change e).extent? = if which e then none else e.extent? := by
      unfold Entry.extent?
      rw [hchange]
      split <;> rfl
    rw [List.map_cons, entryExtents_cons, entryExtents_cons, extentsWhere_cons, hextent]
    split <;> simp only [lineCount_append, Option.toList_none, lineCount_nil] <;> omega

/-! ### The store's laws (R2, R24, R25) -/

/-- The laws of R24, R25 and R2, with ownership as a count: a line of the store lies in one extent and no other line in any. -/
theorem State.storeSound_iff : s.storeSound ↔ freeListSorted s.store.freeList ∧
    (∀ e ∈ s.table, ∀ f, e.fields? = some f → f.sound) ∧
      ∀ n, lineCount s.store.freeList n + lineCount (entryExtents s.table) n = if n < Config.storeLines then 1 else 0 := by
  constructor
  · rintro ⟨hsorted, hinside, hfields, howned⟩
    refine ⟨hsorted, hfields, fun n => ?_⟩
    rw [← lineCount_append]
    split
    · exact howned n ‹_›
    · by_contra hheld
      obtain ⟨x, hx, -, hn⟩ := exists_of_one_le_lineCount (Nat.one_le_iff_ne_zero.mpr hheld)
      have := (hinside x hx).2
      omega
  · rintro ⟨hsorted, hfields, howned⟩
    refine ⟨hsorted, fun x hx => ?_, hfields, fun n hn => ?_⟩
    · have hlen : 1 ≤ x.length := by
        rcases List.mem_append.mp hx with hx | hx
        · exact hsorted.one_le hx
        · obtain ⟨e, he, hextent⟩ := List.mem_filterMap.mp hx
          obtain ⟨f, hf, rfl⟩ := Option.map_eq_some_iff.mp hextent
          exact (hfields e he f hf).length.1
      have hlast := one_le_lineCount hx (n := x.start + x.length - 1) (by omega) (by omega)
      have hcount := howned (x.start + x.length - 1)
      rw [← lineCount_append] at hcount
      split at hcount <;> omega
    · have hcount := howned n
      rwa [← lineCount_append, if_pos hn] at hcount

/-- The laws speak of the table and the free extent list only. -/
theorem State.storeSound.of_same (h : s.storeSound) (htable : t.table = s.table)
    (hfree : t.store.freeList = s.store.freeList) : t.storeSound :=
  ⟨hfree ▸ h.sorted, hfree ▸ htable ▸ h.inside, htable ▸ h.fields, hfree ▸ htable ▸ h.owned⟩

theorem State.storeSound.fields_entryAt (h : s.storeSound) {slot : Nat} {f : EntryFields}
    (hf : (entryAt s.table slot).fields? = some f) : f.sound :=
  h.fields _ (entryAt_mem (lt_length_of_entryAt_ne fun he => by rw [he] at hf; cases hf)) f hf

/-- Entries give up their extents to the list (R13, R29, R30). -/
theorem State.storeSound.giveBack (h : s.storeSound) {xs : List Extent}
    (hfree : t.store.freeList = insertExtents xs s.store.freeList) (hxs : ∀ x ∈ xs, x ∈ entryExtents s.table)
    (hfields : ∀ e ∈ t.table, ∀ f, e.fields? = some f → f.sound)
    (hlines : ∀ n, lineCount (entryExtents t.table) n + lineCount xs n = lineCount (entryExtents s.table) n) :
    t.storeSound := by
  obtain ⟨hsorted, -, howned⟩ := State.storeSound_iff.mp h
  have hlen : ∀ x ∈ xs, 1 ≤ x.length := fun x hx => (h.inside x (List.mem_append_right _ (hxs x hx))).1
  obtain ⟨hsorted', hcount⟩ := hsorted.insertExtents hlen fun n => by
    have := howned n
    have := hlines n
    split at * <;> omega
  refine State.storeSound_iff.mpr ⟨hfree ▸ hsorted', hfields, fun n => ?_⟩
  rw [hfree, hcount, ← howned n, ← hlines n]
  omega

/-- The selected entries become FREE and the others keep their fields (R11, R13, R99, R112). -/
theorem State.storeSound.of_map (h : s.storeSound) {which : Entry → Bool} {change : Entry → Entry}
    (hchange : ∀ e, (change e).fields? = if which e then none else e.fields?) (htable : t.table = s.table.map change)
    (hfree : t.store.freeList = insertExtents (extentsWhere which s.table) s.store.freeList) : t.storeSound := by
  refine h.giveBack hfree (fun x hx => ?_) (fun e he f hf => ?_) fun n => htable ▸ lineCount_entryExtents_map hchange _ n
  · exact ((List.filter_sublist).filterMap _).subset hx
  · rw [htable] at he
    obtain ⟨old, hold, rfl⟩ := List.mem_map.mp he
    rw [hchange] at hf
    split at hf
    · cases hf
    · exact h.fields old hold f hf

/-- The fields of a table's entries after one was replaced are sound if the new entry's are. -/
theorem State.storeSound.fields_set (h : s.storeSound) {slot : Nat} {e : Entry}
    (he : ∀ f, e.fields? = some f → f.sound) : ∀ e' ∈ s.table.set slot e, ∀ f, e'.fields? = some f → f.sound := by
  intro e' he'
  rcases List.mem_or_eq_of_mem_set he' with he' | rfl
  · exact h.fields e' he'
  · exact he

/-- One slot's entry replaced by one with the same fields. -/
theorem State.storeSound.of_set (h : s.storeSound) {slot : Nat} {e : Entry} (htable : t.table = s.table.set slot e)
    (hfree : t.store.freeList = s.store.freeList) (hfields : e.fields? = (entryAt s.table slot).fields?) :
    t.storeSound := by
  by_cases hslot : slot < s.table.length
  · obtain ⟨hsorted, -, howned⟩ := State.storeSound_iff.mp h
    refine State.storeSound_iff.mpr ⟨hfree ▸ hsorted, ?_, fun n => ?_⟩
    · rw [htable]
      exact h.fields_set fun f hf => h.fields_entryAt (hfields ▸ hf)
    · have hcount := lineCount_entryExtents_set hslot e n
      have hextent : e.extent? = (entryAt s.table slot).extent? := by simp only [Entry.extent?, hfields]
      rw [hextent] at hcount
      rw [hfree, htable, ← howned n]
      omega
  · exact h.of_same (by rw [htable, List.set_eq_of_length_le (Nat.not_lt.mp hslot)]) hfree

/-- One slot becomes FREE and its extent returns (R13, R29). -/
theorem State.storeSound.freeSlot (h : s.storeSound) (slot : Nat) : (s.freeSlot slot).storeSound := by
  by_cases hslot : slot < s.table.length
  · refine h.giveBack rfl (fun x hx => ?_) (h.fields_set (by rintro f ⟨⟩)) (lineCount_entryExtents_set hslot .free)
    exact List.mem_filterMap.mpr ⟨_, entryAt_mem hslot, by simpa using hx⟩
  · rw [Nat.not_lt] at hslot
    exact h.of_same (List.set_eq_of_length_le hslot) (by rw [State.freeSlot, entryAt_of_length_le hslot]; rfl)

/-- A FREE slot takes an entry whose lines are the first fit (R27, R28). -/
theorem State.storeSound.take (h : s.storeSound) {slot : Nat} {e : Entry} {f : EntryFields}
    (hslot : lowestFree s.table = some slot) (hfit : firstFit f.length s.store.freeList = some f.storeLine)
    (he : e.fields? = some f) (hf : f.sound) (htable : t.table = s.table.set slot e)
    (hfree : t.store.freeList = takeFirstFit f.length s.store.freeList) : t.storeSound := by
  obtain ⟨hlt, hentry, -⟩ := lowestFree_some hslot
  obtain ⟨hsorted, -, howned⟩ := State.storeSound_iff.mp h
  refine State.storeSound_iff.mpr ⟨hfree ▸ hsorted.takeFirstFit hfit, ?_, fun n => ?_⟩
  · rw [htable]
    exact h.fields_set fun f' hf' => by rw [he] at hf'; cases hf'; exact hf
  · have hset := lineCount_entryExtents_set hlt e n
    have htake := lineCount_takeFirstFit hfit n
    have hextent : e.extent? = some ⟨f.storeLine, f.length⟩ := by simp [Entry.extent?, he, EntryFields.extent]
    rw [hentry, hextent] at hset
    rw [hfree, htable, ← howned n, ← htake]
    simp only [lineCount_cons, lineCount_nil, Entry.extent?, Entry.fields?, Option.map_none, Option.toList_none,
      Option.toList_some] at *
    omega

/-- The first fit lies inside the store (R25, R28). -/
theorem State.storeSound.firstFit_le (h : s.storeSound) {m first : Nat} (hfit : firstFit m s.store.freeList = some first) :
    first + m ≤ 2048 := by
  obtain ⟨before, x, after, hlist, -, hm, rfl⟩ := firstFit_some hfit
  obtain ⟨-, hx⟩ := h.inside x (by simp [hlist])
  exact le_trans (Nat.add_le_add_left hm _) hx

/-! ### Each operation keeps the store's laws -/

/-- After a device reset or RELOAD one full extent holds every line (R26). -/
theorem State.storeSound_of_restart (htable : t.table = emptyTable) (hfree : t.store.freeList = fullFreeList) :
    t.storeSound := State.reset_storeSound.of_same htable hfree

theorem State.storeSound.drainEnd (h : s.storeSound) : s.drainEnd.storeSound :=
  h.of_map (fun e => by split <;> rfl) rfl rfl

theorem State.storeSound.rebind (h : s.storeSound) (p : Port) (b : Option Nat) : (s.rebind p b).storeSound := by
  rcases s.rebind_cases p b with ⟨hr, -⟩ | ⟨g, -, -, -, hr⟩ <;> rw [hr]
  · exact h.of_same rfl rfl
  · exact State.storeSound.drainEnd (h.of_same rfl rfl)

theorem State.storeSound.release (h : s.storeSound) : s.release.storeSound := by
  rw [State.release_effect]
  exact h.of_map (which := Entry.isStaged) (fun e => by cases e <;> rfl) rfl rfl

theorem State.storeSound.resetSessionPart (h : s.storeSound) (p : Port) : (s.resetSessionPart p).storeSound := by
  unfold State.resetSessionPart
  split
  · exact h.release
  · split
    · exact h.of_same rfl rfl
    · exact h

/-- The free extent list after a commit step: as it was when some port is bound to C, else with the marked entries' extents
(R92, R93). -/
theorem State.commitStep_freeList (s : State) : s.commitStep.store.freeList =
    insertExtents (extentsWhere (fun e => e.isMarked && !s.currentIsBound) s.table) s.store.freeList := by
  unfold State.commitStep
  cases s.currentIsBound
  · simp [Store.giveBack]
  · simp [extentsWhere, insertExtents]

/-- A commit step keeps the fields of every entry but, where no port is bound to C, the marked ones (R11, R93). -/
theorem State.storeSound.commitStep (h : s.storeSound) : s.commitStep.storeSound := by
  refine h.of_map (fun e => ?_) s.commitStep_table s.commitStep_freeList
  cases e with
  | live f born mark => cases mark <;> cases s.currentIsBound <;> rfl
  | free => simp [Entry.commit, Entry.fields?]
  | staged f fillMap => rfl
  | retiring f born => rfl

end

end Sys2Proof.Machine

namespace Sys2Proof.Machine

/-! ### Every command, and the step -/

section
variable {c : Instr} {s s' t : State} {p : Port} {r : Response}

/-- A request keeps a law that responses do not touch if its owner keeps it where the request is dispatched (R171, R174). -/
theorem State.pointOfAction_keeps {law : State → Prop} {k : Kind} {payload : List Byte} {owner : State → Answer}
    (hlaw : law s) (hrespond : ∀ u r, law u → law (u.respond p r))
    (ho : s.arrived p k payload → (s.loader.ready = true ∨ answeredInLoad k = true) →
      ∀ s' r, owner s = .ok (s', r) → law s')
    (h : s.pointOfAction p k payload owner = .next t) : law t := by
  rcases State.pointOfAction_next h with rfl | ⟨-, -, -, rfl⟩ | ⟨harr, hload, s', r, hs, rfl⟩
  · exact hlaw
  · exact hrespond _ _ hlaw
  · exact hrespond _ _ (ho harr hload s' r hs)

/-- The commands that touch the links and the notice units at most: the events of a link, and the requests that report. -/
def onlyReports : Instr → Bool
  | .status .. | .tableRead .. | .noticeTake .. | .badFrame .. | .badKind .. | .selectAsserted .. | .frameDiscarded ..
  | .responseLost .. | .byteReceived .. | .byteSent .. | .selectReleased .. => true
  | .seek .. | .next .. | .portSet .. | .claim .. | .add .. | .fill .. | .remove .. | .commit .. | .abort ..
  | .reload .. | .portReset .. | .deviceReset | .resetEnd .. | .timebaseTick | .drainExpiry | .sessionExpiry
  | .accessCompletes .. | .readyLimitExceeded => false

theorem exec_of_onlyReports (hc : onlyReports c = true) (h : exec c s = .next t) :
    ∃ notices links, t = (s.putNotices notices).putLinks links := by
  have request : ∀ {p k payload} {owner : State → Answer},
      (∀ s' r, owner s = .ok (s', r) → ∃ notices, s' = s.putNotices notices) →
      s.pointOfAction p k payload owner = .next t → ∃ notices links, t = (s.putNotices notices).putLinks links := by
    intro p k payload owner ho h
    refine State.pointOfAction_keeps (law := fun t => ∃ notices links, t = (s.putNotices notices).putLinks links)
      ⟨s.notices, s.links, rfl⟩ ?_ (fun _ _ s' r hs => ?_) h
    · rintro u r ⟨notices, links, rfl⟩
      exact ⟨notices, _, rfl⟩
    · obtain ⟨notices, rfl⟩ := ho s' r hs
      exact ⟨notices, s.links, rfl⟩
  cases c with
  | status p => exact request (owner := statusOwner p) (fun s' r ho => by cases ho; exact ⟨s.notices, rfl⟩) h
  | tableRead p slot =>
    refine request (fun s' r ho => ?_) h
    unfold tableReadOwner at ho
    split at ho <;> cases ho <;> exact ⟨s.notices, rfl⟩
  | noticeTake p =>
    refine request (fun s' r ho => ?_) h
    unfold noticeTakeOwner at ho
    dsimp only at ho
    split at ho <;> cases ho
    · exact ⟨s.notices, rfl⟩
    · exact ⟨_, rfl⟩
  | badFrame p =>
    replace h : execBadFrame p s = .next t := h
    unfold execBadFrame at h
    split at h <;> cases h <;> exact ⟨s.notices, _, rfl⟩
  | badKind p =>
    replace h : execBadKind p s = .next t := h
    unfold execBadKind at h
    split at h <;> cases h <;> exact ⟨s.notices, _, rfl⟩
  | frameDiscarded p =>
    replace h : execFrameDiscarded p s = .next t := h
    unfold execFrameDiscarded at h
    split at h <;> cases h <;> exact ⟨s.notices, _, rfl⟩
  | responseLost p =>
    replace h : execResponseLost p s = .next t := h
    unfold execResponseLost at h
    split at h <;> cases h <;> exact ⟨s.notices, _, rfl⟩
  | selectAsserted p | byteReceived p lo hi | byteSent p | selectReleased p => cases h; exact ⟨s.notices, _, rfl⟩
  | _ => cases hc

theorem seekOwner_storeSound {line : Nat} (hs : s.storeSound) (h : seekOwner p line s = .ok (s', r)) : s'.storeSound := by
  unfold seekOwner at h
  (repeat' split at h) <;> cases h
  · exact hs
  · have hbind : ((s.abandonBoth p).rebind p (some s.gen.current)).storeSound :=
      State.storeSound.rebind (hs.of_same (by simp) (by simp)) p _
    exact hbind.of_same (by simp [State.openStream]) (by simp [State.openStream])

theorem nextOwner_storeSound (hs : s.storeSound) (h : nextOwner p s = .ok (s', r)) : s'.storeSound := by
  unfold nextOwner nextStreaming nextDelivers at h
  dsimp only at h
  (repeat' split at h) <;> cases h <;> exact hs.of_same (by simp) (by simp)

theorem State.storeSound.restartIdle (hs : s.storeSound) (p : Port) : (s.restartIdle p).storeSound :=
  hs.of_same (by simp) (by simp)

theorem claimOwner_storeSound {wait : Nat} (hs : s.storeSound) (h : claimOwner p wait s = .ok (s', r)) :
    s'.storeSound := by
  unfold claimOwner claimBody at h
  (repeat' split at h) <;> cases h <;> exact hs.of_same (by simp) (by simp)

/-- The fields of an ADD that passed its checks satisfy R2 (R118). -/
theorem fields_sound_of_addBadArg {f : EntryFields} {scope : Byte}
    (h : addBadArg f.matchLine f.length scope.toNat = false) (hscope : f.scope = scope.setWidth 4)
    (hstore : f.storeLine + f.length ≤ 2048) : f.sound := by
  simp only [addBadArg, Bool.or_eq_false_iff, decide_eq_false_iff_not, Nat.not_lt, Nat.not_le] at h
  obtain ⟨⟨⟨⟨⟨hlow, hhigh⟩, -⟩, hrange⟩, hnone⟩, hports⟩ := h
  refine ⟨⟨by omega, hhigh⟩, hrange, fun hzero => ?_, hstore⟩
  rw [hscope] at hzero
  have hmod : scope.toNat % 16 = 0 := by simpa using congrArg BitVec.toNat hzero
  omega

theorem addOwner_storeSound {tag : BitVec 16} {line length : Nat} {scope : Byte} {sum : BitVec 16} (hs : s.storeSound)
    (h : addOwner p tag line length scope sum s = .ok (s', r)) : s'.storeSound := by
  have hb := hs.restartIdle p
  unfold addOwner addBody at h
  split at h
  · split at h
    · cases h; exact hb
    rename_i harg
    split at h
    · cases h; exact hb
    split at h
    · cases h; exact hb
    split at h
    · cases h; exact hb
    rename_i slot hslot
    split at h <;> cases h
    · exact hb
    · rename_i first hfit
      exact hb.take (f := ⟨tag, line, length, scope.setWidth 4, first, .port p, sum⟩) hslot hfit rfl
        (fields_sound_of_addBadArg (Bool.eq_false_iff.mpr harg) rfl (hb.firstFit_le hfit)) rfl rfl
  · cases h; exact hs

theorem fillOwner_storeSound {slot index : Nat} {data : List Byte} (hs : s.storeSound)
    (h : fillOwner p slot index data s = .ok (s', r)) : s'.storeSound := by
  have hb := hs.restartIdle p
  unfold fillOwner fillBody at h
  split at h
  · split at h
    · cases h
    split at h
    · cases h; exact hb
    split at h
    · rename_i hentry
      split at h <;> cases h
      · exact hb
      · exact hb.of_set rfl rfl (by rw [hentry]; rfl)
    · cases h; exact hb
  · cases h; exact hs

theorem removeOwner_storeSound {slot : Nat} (hs : s.storeSound) (h : removeOwner p slot s = .ok (s', r)) :
    s'.storeSound := by
  have hb := hs.restartIdle p
  unfold removeOwner removeBody at h
  split at h
  · split at h
    · cases h; exact hb
    split at h
    · cases h; exact (hb.freeSlot slot).of_same (by simp) (by simp)
    · rename_i hentry
      (repeat' split at h) <;> cases h
      · exact hb
      · exact hb
      · exact hb.of_set rfl rfl (by rw [hentry]; rfl)
    · cases h; exact hb
    · cases h; exact hb
  · cases h; exact hs

theorem commitOwner_storeSound (hs : s.storeSound) (h : commitOwner p s = .ok (s', r)) : s'.storeSound := by
  have hb := hs.restartIdle p
  unfold commitOwner commitBody at h
  (repeat' split at h) <;> cases h
  · exact hb.of_same (by simp) (by simp)
  · exact hb
  · exact hb
  · exact hb.commitStep.of_same (by simp) (by simp)
  · exact hs

theorem abortOwner_storeSound (hs : s.storeSound) (h : abortOwner p s = .ok (s', r)) : s'.storeSound := by
  unfold abortOwner at h
  (repeat' split at h) <;> cases h
  · exact hs.release
  · exact hs.of_same (by simp) (by simp)
  · exact hs

theorem reloadOwner_storeSound (hs : s.storeSound) (h : reloadOwner p s = .ok (s', r)) : s'.storeSound := by
  unfold reloadOwner at h
  split at h <;> cases h
  · exact State.storeSound_of_restart (by simp [State.reload]) (by simp [State.reload, Store.restart])
  · exact hs

theorem State.storeSound.portReset (hs : s.storeSound) (p : Port) : (s.portReset p).storeSound := by
  have hstream : (s.resetStreamPart p).storeSound := State.storeSound.rebind (hs.of_same (by simp) (by simp)) p none
  exact (hstream.resetSessionPart p).of_same (by simp [State.portReset]) (by simp [State.portReset])

/-- A placement where no slot is FREE skips the record (log entry 16). -/
theorem State.placeRecord_of_full {d : DirRecord} {chosen : Nat} (hslot : lowestFree s.table = none) :
    s.placeRecord d chosen = s.skipRecord .noSpace := by
  unfold State.placeRecord
  rw [hslot]

/-- A placed record takes its chosen extent, still the first fit (R28, R145). -/
theorem State.storeSound.placeRecord (hs : s.storeSound) {d : DirRecord} {chosen : Nat}
    (hfit : firstFit d.length s.store.freeList = some chosen) (hlen : 1 ≤ d.length ∧ d.length ≤ 64)
    (hrange : d.matchLine + d.length ≤ 524288) (hscope : d.scope ≠ 0) : (s.placeRecord d chosen).storeSound := by
  cases hslot : lowestFree s.table with
  | none =>
    rw [State.placeRecord_of_full hslot]
    exact hs.of_same (by simp) (by simp)
  | some slot =>
    rw [State.placeRecord_of_free hslot]
    exact hs.take (e := .live (d.entry chosen) 1 false) (f := d.entry chosen) hslot hfit rfl
      ⟨hlen, hrange, hscope, hs.firstFit_le hfit⟩ (by simp) (by simp; rfl)

/-- A line that the loader has read is written, judged, or placed with its record (R136 to R145). -/
theorem State.storeSound.loaderData (hs : s.storeSound) (hload : s.loadSound) (x : Xmc) (line : List Byte) :
    ((s.putXmc x).loaderData line).storeSound := by
  unfold State.loaderData
  split
  · exact hs.of_same rfl rfl
  · split <;> exact hs.of_same (by simp) (by simp)
  · exact hs.of_same (by simp) (by simp)
  · rename_i d chosen i hstep
    obtain ⟨hfit, hlow, hhigh, hrange, hscope, -, -⟩ := hload.copying d chosen i hstep
    have hwritten : ((s.putXmc x).putStore (s.store.writeLine (chosen + i) line)).storeSound := hs.of_same rfl rfl
    unfold State.takeContent
    dsimp only
    split
    · exact hwritten.of_same (by simp) (by simp)
    split
    · exact hwritten.placeRecord hfit ⟨hlow, hhigh⟩ hrange hscope
    · exact hwritten.of_same (by simp) (by simp)

theorem State.storeSound.endRead (hs : s.storeSound) (hload : s.loadSound) (r : Read) (result : Option (List Byte)) :
    (s.endRead r result).storeSound := by
  have hgrant : ∀ u : State, u.storeSound → u.grant.storeSound := fun u hu => hu.of_same (by simp) (by simp)
  rw [State.endRead_cases]
  refine hgrant _ ?_
  split
  · exact hs.of_same rfl rfl
  split
  · exact hs.of_same (by simp) (by simp)
  · exact hs.loaderData hload _ _
  · exact hs.of_same (by simp) (by simp)

theorem exec_storeSound (hs : s.storeSound) (hload : s.loadSound) (h : exec c s = .next t) : t.storeSound := by
  have request : ∀ {p k payload} {owner : State → Answer}, (∀ s' r, owner s = .ok (s', r) → s'.storeSound) →
      s.pointOfAction p k payload owner = .next t → t.storeSound := fun ho =>
    State.pointOfAction_keeps hs (fun u r hu => hu.of_same (by simp) (by simp)) (fun _ _ => ho)
  cases c with
  | seek p line => exact request (fun _ _ => seekOwner_storeSound hs) h
  | next p => exact request (fun _ _ => nextOwner_storeSound hs) h
  | portSet p level prefetch mask base size =>
    refine request (fun s' r ho => ?_) h
    unfold portSetOwner at ho
    (repeat' split at ho) <;> cases ho <;> exact hs.of_same rfl rfl
  | claim p wait => exact request (fun _ _ => claimOwner_storeSound hs) h
  | add p tag line length scope sum => exact request (fun _ _ => addOwner_storeSound hs) h
  | fill p slot index data => exact request (fun _ _ => fillOwner_storeSound hs) h
  | remove p slot => exact request (fun _ _ => removeOwner_storeSound hs) h
  | commit p => exact request (fun _ _ => commitOwner_storeSound hs) h
  | abort p => exact request (fun _ _ => abortOwner_storeSound hs) h
  | reload p => exact request (fun _ _ => reloadOwner_storeSound hs) h
  | portReset p =>
    refine request (owner := portResetOwner p) (fun s' r ho => ?_) h
    cases ho
    exact hs.portReset p
  | deviceReset => cases h; exact State.storeSound_of_restart rfl rfl
  | resetEnd straps =>
    replace h : execResetEnd straps s = .next t := h
    unfold execResetEnd State.resetEnd at h
    split at h <;> cases h <;> exact hs.of_same (by simp) (by simp)
  | timebaseTick => cases h; exact hs.of_same rfl rfl
  | drainExpiry =>
    replace h : execDrainExpiry s = .next t := h
    unfold execDrainExpiry at h
    split at h <;> cases h
    · exact hs
    · exact State.storeSound.drainEnd (hs.of_same (by simp) (by simp))
  | sessionExpiry =>
    replace h : execSessionExpiry s = .next t := h
    unfold execSessionExpiry at h
    split at h <;> cases h
    · exact hs
    · exact State.storeSound.release (hs.of_same (by simp) (by simp))
  | accessCompletes xd =>
    replace h : execAccessCompletes xd s = .next t := h
    unfold execAccessCompletes at h
    dsimp only at h
    (repeat' split at h) <;> cases h
    · exact hs
    · exact hs.of_same rfl rfl
    · exact hs.endRead hload _ _
  | readyLimitExceeded =>
    replace h : execReadyLimitExceeded s = .next t := h
    unfold execReadyLimitExceeded at h
    split at h <;> cases h
    · exact hs
    · exact hs.endRead hload _ _
  | _ =>
    obtain ⟨notices, links, rfl⟩ := exec_of_onlyReports rfl h
    exact hs.of_same rfl rfl

end

/-- Settles O57, command by command: a command takes lines by first fit into a FREE slot, gives lines back as it frees their
entries, or leaves the free extent list and the fields of every entry. -/
theorem stepKeepsStoreOwnership : Obligations.StepKeepsStoreOwnership := by
  intro s t hload hstore hstep
  rcases step_cases hstep with ⟨-, rfl⟩ | ⟨c, rest, -, hexec⟩
  · exact hstore
  · exact exec_storeSound (hstore.putPending rest) (hload.putPending rest) hexec

end Sys2Proof.Machine

/-! ## Loads (R81, R82, R136 to R149) -/

namespace Sys2Proof.Machine

/-! ### The loader's outstanding read -/

section
variable {x y : Xmc} {line : Option Nat}

/-- The outstanding reads of a loader that waits for `line`: none for a loader that waits for no line, else one, a request of
level 0 or the read in flight (R81, R136). -/
def Xmc.waitsFor (x : Xmc) : Option Nat → Prop
  | none => x.loaderRequest = none ∧ ∀ l, ¬ x.servesLoader l
  | some line =>
    ((∃ passes, x.loaderRequest = some ⟨line, 0, passes⟩) ∧ ∀ l, ¬ x.servesLoader l)
      ∨ (x.loaderRequest = none ∧ x.servesLoader line)

/-- What the loader waits for is read off its request and the read in flight. -/
theorem Xmc.waitsFor.of_same (h : x.waitsFor line) (hrequest : y.loaderRequest = x.loaderRequest)
    (hserves : ∀ l, y.servesLoader l ↔ x.servesLoader l) : y.waitsFor line := by
  cases line <;> simpa only [Xmc.waitsFor, hrequest, hserves] using h

theorem Xmc.waitsFor.of_inFlight (h : x.waitsFor line) (hrequest : y.loaderRequest = x.loaderRequest)
    (hflight : y.inFlight = x.inFlight) : y.waitsFor line :=
  h.of_same hrequest fun l => by simp only [Xmc.servesLoader, hflight]

theorem Xmc.waitsFor.putSlotRequest (h : x.waitsFor line) (p : Port) (k : SlotId) (r : Option Request) :
    (x.putSlotRequest p k r).waitsFor line := h.of_inFlight (by simp) (by simp)

/-- A release orphans reads of a line slot only (R76). -/
theorem Xmc.waitsFor.release (h : x.waitsFor line) (p : Port) (k : SlotId) : (x.release p k).waitsFor line := by
  refine h.of_same (by simp) fun l => ?_
  unfold Xmc.servesLoader
  rw [Xmc.inFlight_release]
  cases x.inFlight with
  | none => simp
  | some r => by_cases hr : r.requester = .slot p k <;> simp [hr]

/-- The end of a read that does not serve the loader is no concern of what the loader waits for (R73, R76). -/
theorem Xmc.waitsFor.of_read_end (h : x.waitsFor line) (hother : ∀ l, ¬ x.servesLoader l)
    (hrequest : y.loaderRequest = x.loaderRequest) (hidle : y.inFlight = none) : y.waitsFor line :=
  h.of_same hrequest fun l => iff_of_false (by simp [Xmc.servesLoader, hidle]) (hother l)

/-- A grant takes the loader's request, or ages it and starts a line slot's read (R67, R69). -/
theorem Xmc.waitsFor.grant (h : x.waitsFor line) (roles : PerPort SlotId) : (x.grant roles).waitsFor line := by
  rcases x.grant_cases roles with ⟨hg, -⟩ | ⟨hidle, q, r, -, hr, hg⟩
  · rwa [hg]
  have hnone : ∀ l, ¬ x.servesLoader l := by simp [Xmc.servesLoader, hidle]
  have hrequest : (x.grant roles).loaderRequest = if q = .loader then none else x.loaderRequest.map Request.age := by
    rw [hg]
    have := ((x.remove q).requestOf_ageAll .loader).trans (congrArg _ (x.requestOf_remove q .loader))
    refine this.trans ?_
    by_cases hq : q = .loader <;> simp [hq, eq_comm]
  have hserves : ∀ l, (x.grant roles).servesLoader l ↔ q = .loader ∧ r.line = l := by
    intro l
    simp [Xmc.servesLoader, hg]
  by_cases hq : q = .loader
  · subst hq
    cases line with
    | none => cases h.1.symm.trans hr
    | some line =>
      obtain ⟨⟨passes, hp⟩, -⟩ | ⟨-, hs⟩ := h
      · cases hp.symm.trans hr
        exact .inr ⟨by simpa using hrequest, (hserves _).mpr ⟨rfl, rfl⟩⟩
      · exact absurd hs (hnone _)
  · rw [if_neg hq] at hrequest
    have hserves' : ∀ l, ¬ (x.grant roles).servesLoader l := fun l hl => hq ((hserves l).mp hl).1
    cases line with
    | none => exact ⟨by rw [hrequest, h.1]; rfl, hserves'⟩
    | some line =>
      obtain ⟨⟨passes, hp⟩, -⟩ | ⟨-, hs⟩ := h
      · exact .inl ⟨⟨_, by rw [hrequest, hp]; rfl⟩, hserves'⟩
      · exact absurd hs (hnone _)

end

/-! ### Streams leave the loader's outstanding read -/

section
variable {s t : State} {line : Option Nat} {p : Port} {k : SlotId}

theorem State.waitsFor_grant (h : s.xmc.waitsFor line) : s.grant.xmc.waitsFor line := Xmc.waitsFor.grant h s.roles

theorem State.waitsFor_fillSlot (h : s.xmc.waitsFor line) (portLine : Nat) :
    (s.fillSlot p k portLine).xmc.waitsFor line := by
  rw [State.fillSlot_xmc]
  split
  · exact h
  · exact h.putSlotRequest p k _

theorem State.waitsFor_fillAhead (h : s.xmc.waitsFor line) : (s.fillAhead p).xmc.waitsFor line := by
  unfold State.fillAhead
  dsimp only
  split
  · exact State.waitsFor_fillSlot h _
  · exact h

theorem State.waitsFor_abandonBoth (h : s.xmc.waitsFor line) : (s.abandonBoth p).xmc.waitsFor line :=
  (h.release p .a).release p .b

theorem State.waitsFor_openStream (h : s.xmc.waitsFor line) (portLine : Nat) :
    (s.openStream p portLine).xmc.waitsFor line := by
  refine State.waitsFor_fillAhead (State.waitsFor_fillSlot ?_ _)
  simpa using State.waitsFor_abandonBoth h

theorem State.waitsFor_advance (h : s.xmc.waitsFor line) : (s.advance p).xmc.waitsFor line := by
  unfold State.advance
  dsimp only
  split
  · exact h
  split
  · exact State.waitsFor_fillAhead (State.waitsFor_fillSlot (by exact h) _)
  · exact State.waitsFor_fillAhead (by exact h)

theorem State.waitsFor_expirePort (h : s.xmc.waitsFor line) (sup : Nat) : (s.expirePort sup p).xmc.waitsFor line := by
  unfold State.expirePort
  dsimp only
  split
  · simpa [State.closeStale_xmc] using State.waitsFor_abandonBoth h
  · exact h

theorem State.waitsFor_expirePorts (h : s.xmc.waitsFor line) (sup : Nat) (ports : List Port) :
    (ports.foldl (fun s p => s.expirePort sup p) s).xmc.waitsFor line := by
  induction ports generalizing s with
  | nil => exact h
  | cons p ports ih => exact ih (State.waitsFor_expirePort h sup)

end

/-! ### What keeps a load sound -/

section
variable {s t : State}

/-- What R149 keeps still while a load is in progress: no session, no drain, no open or bound stream, C 1. -/
structure State.Quiet (s : State) : Prop where
  session : s.edit.session = none
  superseded : s.gen.superseded = none
  idle : ∀ p, (s.streams.get p).state = .idle
  unbound : ∀ p, s.gen.bindings.get p = none
  current : s.gen.current = 1

theorem State.loadSound.toQuiet (h : s.loadSound) (hload : s.loader.ready = false) : s.Quiet := by
  obtain ⟨hsession, hsup, hports⟩ := h.quiet hload
  exact ⟨hsession, hsup, fun p => (hports p).1, fun p => (hports p).2, h.current hload⟩

theorem State.Quiet.of_same (h : s.Quiet) (hedit : t.edit = s.edit) (hgen : t.gen = s.gen)
    (hstate : ∀ p, (t.streams.get p).state = (s.streams.get p).state) : t.Quiet :=
  ⟨hedit ▸ h.session, hgen ▸ h.superseded, fun p => (hstate p).trans (h.idle p), hgen ▸ h.unbound, hgen ▸ h.current⟩

theorem State.loadSound.waitsFor (h : s.loadSound) : s.xmc.waitsFor s.loaderLine := h.reads

/-- A command that leaves the loader, and during a load whatever the load rests on. -/
theorem State.loadSound.of_loader (h : s.loadSound) (hloader : t.loader = s.loader) (hreset : t.inReset = s.inReset)
    (hxmc : s.inReset = true → t.xmc = s.xmc) (hwaits : ∀ line, s.xmc.waitsFor line → t.xmc.waitsFor line)
    (hload : s.loader.ready = false → t.Quiet ∧ t.table = s.table ∧ t.store.freeList = s.store.freeList) :
    t.loadSound where
  quiet := fun hr => by
    have hq := (hload (hloader ▸ hr)).1
    exact ⟨hq.session, hq.superseded, fun p => ⟨hq.idle p, hq.unbound p⟩⟩
  waits := hloader ▸ h.waits
  reset := fun hr => by
    rw [hreset] at hr
    rw [hloader, hxmc hr]
    exact h.reset hr
  current := fun hr => (hload (hloader ▸ hr)).1.current
  runs := hreset ▸ hloader ▸ h.runs
  reads := by
    have hline : t.loaderLine = s.loaderLine := by simp only [State.loaderLine, hloader]
    exact (hline ▸ hwaits _ h.waitsFor : t.xmc.waitsFor t.loaderLine)
  records := hloader ▸ h.records
  copying := fun d chosen i hstep => by
    rw [hloader] at hstep
    have hready : s.loader.ready = false := by
      cases hr : s.loader.ready
      · rfl
      · cases (h.waits hr).symm.trans hstep
    obtain ⟨-, htable, hfree⟩ := hload hready
    rw [htable, hfree]
    exact h.copying d chosen i hstep

/-- Outside a load only the loader, and that no read is outstanding for it, is at stake; no device reset lasts then. -/
theorem State.loadSound.of_ready (h : s.loadSound) (hready : s.loader.ready = true) (hloader : t.loader = s.loader)
    (hreset : t.inReset = s.inReset) (hwaits : ∀ line, s.xmc.waitsFor line → t.xmc.waitsFor line) : t.loadSound := by
  refine h.of_loader hloader hreset (fun hr => ?_) hwaits (fun hload => ?_)
  · rw [(h.reset hr).1] at hready; cases hready
  · rw [hload] at hready; cases hready

/-- A command that leaves the blocks a load rests on. -/
theorem State.loadSound.of_blocks (h : s.loadSound) (hloader : t.loader = s.loader) (hreset : t.inReset = s.inReset)
    (hxmc : t.xmc = s.xmc) (hedit : t.edit = s.edit) (hgen : t.gen = s.gen) (hstreams : t.streams = s.streams)
    (htable : t.table = s.table) (hstore : t.store = s.store) : t.loadSound :=
  h.of_loader hloader hreset (fun _ => hxmc) (fun _ => hxmc ▸ id)
    fun hload => ⟨(h.toQuiet hload).of_same hedit hgen (by simp [hstreams]), htable, by rw [hstore]⟩

/-! ### The course of a load -/

/-- A load between two of its reads: outside a device reset, with no read outstanding for the loader (R73, R136). -/
structure State.BetweenReads (s : State) : Prop where
  quiet : s.Quiet
  loading : s.loader.ready = false
  running : s.inReset = false
  unread : s.xmc.waitsFor none

theorem State.BetweenReads.putLoader (h : s.BetweenReads) {l : Loader} (hl : l.ready = false) :
    (s.putLoader l).BetweenReads := ⟨h.quiet.of_same rfl rfl fun _ => rfl, hl, h.running, h.unread⟩

/-- The loader waits for its next line (R81, R136). -/
theorem State.BetweenReads.loaderRead (h : s.BetweenReads) {step : LoaderStep} {line : Nat}
    (hline : (s.loaderRead step line).loaderLine = some line)
    (hrecords : step = .record ∨ (∃ d chosen i, step = .copy d chosen i) →
      (∃ d, s.loader.pendingRecord = some d) ∧ s.loader.report.headerCause = .ok
        ∧ s.loader.recordIndex < s.loader.recordCount ∧ s.loader.recordCount ≤ 64)
    (hcopying : ∀ d chosen i, step = .copy d chosen i →
      firstFit d.length s.store.freeList = some chosen ∧ 1 ≤ d.length ∧ d.length ≤ 64
        ∧ d.matchLine + d.length ≤ 524288 ∧ d.scope ≠ 0 ∧ i < d.length
        ∧ overlaps s.table d.matchLine d.length d.scope = false) : (s.loaderRead step line).loadSound where
  quiet := fun _ => ⟨h.quiet.session, h.quiet.superseded, fun p => ⟨h.quiet.idle p, h.quiet.unbound p⟩⟩
  waits := fun hr => by cases h.loading.symm.trans hr
  reset := fun hr => by cases h.running.symm.trans hr
  current := fun _ => h.quiet.current
  runs := fun _ _ hidle => by
    replace hidle : step = .idle := hidle
    subst hidle
    cases hline
  reads := by
    rw [hline]
    exact .inl ⟨⟨0, rfl⟩, h.unread.2⟩
  records := hrecords
  copying := hcopying

/-- A load begins with its header (R136, R137). -/
theorem State.BetweenReads.beginLoad (h : s.BetweenReads) : s.beginLoad.loadSound :=
  h.loaderRead rfl (by rintro (h | ⟨_, _, _, h⟩) <;> cases h) (by rintro _ _ _ ⟨⟩)

/-- A load ends (R148). -/
theorem State.BetweenReads.endLoad (h : s.BetweenReads) : s.endLoad.loadSound := by
  rw [State.endLoad_eq_loadEnded]
  exact {
    quiet := by rintro ⟨⟩
    waits := fun _ => rfl
    reset := fun hr => by cases h.running.symm.trans hr
    current := by rintro ⟨⟩
    runs := by rintro ⟨⟩
    reads := h.unread
    records := by rintro (h | ⟨_, _, _, h⟩) <;> cases h
    copying := by rintro _ _ _ ⟨⟩ }

/-- A load between two reads whose header was valid (R139): it processes the records that the header counts. -/
structure State.BetweenRecords (s : State) : Prop extends s.BetweenReads where
  pending : ∃ d, s.loader.pendingRecord = some d
  cause : s.loader.report.headerCause = .ok
  count : s.loader.recordCount ≤ 64

/-- The loader turns to a record, or ends the load past the last (R136, R146). -/
theorem State.BetweenRecords.beginRecord (h : s.BetweenRecords) (i : Nat) : (s.beginRecord i).loadSound := by
  have hturn : (s.putLoader { s.loader with recordIndex := i }).BetweenReads := h.putLoader h.loading
  unfold State.beginRecord
  dsimp only
  split
  · rename_i hi
    exact hturn.loaderRead rfl (fun _ => ⟨h.pending, h.cause, hi, h.count⟩) (by rintro _ _ _ ⟨⟩)
  · exact hturn.endLoad

/-- A new report with the same header cause is no concern of the records that remain. -/
theorem State.BetweenRecords.putReport (h : s.BetweenRecords) {report : LoadReport} (hcause : report.headerCause = .ok) :
    (s.putLoader { s.loader with report := report }).BetweenRecords :=
  ⟨h.putLoader h.loading, h.pending, hcause, h.count⟩

/-- A record is skipped (R146). -/
theorem State.BetweenRecords.skipRecord (h : s.BetweenRecords) (cause : SkipCause) : (s.skipRecord cause).loadSound := by
  rw [State.skipRecord_eq]
  have hreport := h.putReport (report := s.loader.report.withSkip s.loader.recordIndex cause) h.cause
  exact hreport.beginRecord _

/-- The table and the store are no concern of a load between two records. -/
theorem State.BetweenRecords.of_table (h : s.BetweenRecords) (tbl : List Entry) (st : Store) :
    ((s.putTable tbl).putStore st).BetweenRecords :=
  ⟨⟨h.quiet.of_same rfl rfl fun _ => rfl, h.loading, h.running, h.unread⟩, h.pending, h.cause, h.count⟩

/-- A record is placed (R145). -/
theorem State.BetweenRecords.placeRecord (h : s.BetweenRecords) (d : DirRecord) (chosen : Nat) :
    (s.placeRecord d chosen).loadSound := by
  cases hslot : lowestFree s.table with
  | none =>
    rw [State.placeRecord_of_full hslot]
    exact h.skipRecord _
  | some slot =>
    rw [State.placeRecord_of_free hslot]
    have hplaced := h.of_table (s.table.set slot (.live (d.entry chosen) 1 false)) (s.store.take d.length)
    have hreport := hplaced.putReport
      (report := { s.loader.report with placed := s.loader.report.placed + 1 }) hplaced.cause
    exact hreport.beginRecord _

/-- What holds of a record that the loader copies: R2 but for its place, the first fit as that place, and a range that passed
the overlap check (R28, R142, R143). -/
def DirRecord.fits (d : DirRecord) (chosen : Nat) (tbl : List Entry) (free : List Extent) : Prop :=
  firstFit d.length free = some chosen ∧ 1 ≤ d.length ∧ d.length ≤ 64 ∧ d.matchLine + d.length ≤ 524288 ∧ d.scope ≠ 0
    ∧ overlaps tbl d.matchLine d.length d.scope = false

/-- The next content line is read (R144). -/
theorem State.BetweenRecords.copyLine (h : s.BetweenRecords) (hindex : s.loader.recordIndex < s.loader.recordCount)
    {d : DirRecord} {chosen i : Nat} (hi : i < d.length) (hfits : d.fits chosen s.table s.store.freeList) :
    (s.loaderRead (.copy d chosen i) (d.sourceLine + i)).loadSound := by
  refine h.loaderRead rfl (fun _ => ⟨h.pending, h.cause, hindex, h.count⟩) fun d' chosen' i' hstep => ?_
  cases hstep
  obtain ⟨hfit, hlow, hhigh, hrange, hscope, hclear⟩ := hfits
  exact ⟨hfit, hlow, hhigh, hrange, hscope, hi, hclear⟩

/-- A record that passes its checks satisfies R2 and has its place (R141 to R143). -/
theorem fits_of_checkRecord {tbl : List Entry} {free : List Extent} {bytes : List Byte} {d : DirRecord} {chosen : Nat}
    (h : checkRecord tbl free bytes = .ok (d, chosen)) : d.fits chosen tbl free := by
  unfold checkRecord at h
  dsimp only at h
  split at h
  · cases h
  split at h
  · cases h
  rename_i hok
  split at h
  · cases h
  rename_i hclear
  split at h <;> cases h
  rename_i hfit
  simp only [recordFieldsOk, Bool.not_eq_true', Bool.not_eq_false, Bool.and_eq_true, decide_eq_true_eq] at hok
  obtain ⟨⟨⟨⟨⟨⟨⟨-, -⟩, hlow⟩, hhigh⟩, hrange⟩, -⟩, hnone⟩, hports⟩ := hok
  refine ⟨hfit, hlow, hhigh, hrange, fun hzero => ?_, Bool.eq_false_iff.mpr hclear⟩
  have hmod : byteAt bytes 9 % 16 = 0 := by simpa [readRecord] using congrArg BitVec.toNat hzero
  omega

/-- A record line is judged (R141 to R143). -/
theorem State.BetweenRecords.takeRecord (h : s.BetweenRecords) (hindex : s.loader.recordIndex < s.loader.recordCount)
    (line : List Byte) : (s.takeRecord line).loadSound := by
  unfold State.takeRecord
  split
  · exact h.skipRecord _
  · rename_i d chosen hcheck
    have hfits := fits_of_checkRecord hcheck
    exact h.copyLine hindex (i := 0) hfits.2.1 hfits

/-- A content line is written, and the copy goes on or decides the record (R144, R145). -/
theorem State.BetweenRecords.takeContent (h : s.BetweenRecords) (hindex : s.loader.recordIndex < s.loader.recordCount)
    {d : DirRecord} {chosen : Nat} (hfits : d.fits chosen s.table s.store.freeList) (i : Nat) (line : List Byte) :
    (s.takeContent d chosen i line).loadSound := by
  have hwritten := h.of_table s.table (s.store.writeLine (chosen + i) line)
  unfold State.takeContent
  dsimp only
  split
  · exact hwritten.copyLine hindex ‹_› hfits
  split
  · exact hwritten.placeRecord d chosen
  · exact hwritten.skipRecord _

/-- A valid header counts at most 64 records (R138). -/
theorem count_le_of_checkHeader {line : List Byte} (h : checkHeader line = .ok) : byteAt line 5 ≤ 64 := by
  unfold checkHeader at h
  (repeat' split at h) <;> first | omega | cases h

/-- What the loader waits for while it processes records. -/
theorem State.loadSound.betweenRecords (h : s.loadSound) (hbetween : t.BetweenReads) (hloader : t.loader = s.loader)
    (hstep : s.loader.step = .record ∨ ∃ d chosen i, s.loader.step = .copy d chosen i) :
    t.BetweenRecords ∧ t.loader.recordIndex < t.loader.recordCount := by
  obtain ⟨hpending, hcause, hindex, hcount⟩ := h.records hstep
  rw [← hloader] at hpending hcause hindex hcount
  exact ⟨⟨hbetween, hpending, hcause, hcount⟩, hindex⟩

/-- The header fails (R138, R140). -/
theorem State.BetweenReads.failHeader (h : s.BetweenReads) (cause : HeaderCause) : (s.failHeader cause).loadSound := by
  unfold State.failHeader
  refine State.BetweenReads.endLoad (h.putLoader ?_)
  exact h.loading

end

end Sys2Proof.Machine

namespace Sys2Proof.Machine

/-! ### The end of a line read -/

section
variable {s t : State} {x : Xmc}

/-- A valid header begins its records (R139). -/
theorem State.BetweenReads.acceptHeader (h : s.BetweenReads) {line : List Byte} (hok : checkHeader line = .ok) :
    (s.acceptHeader line).loadSound := by
  unfold State.acceptHeader
  refine State.BetweenRecords.beginRecord ⟨h.putLoader ?_, ⟨_, rfl⟩, rfl, ?_⟩ 0
  · exact h.loading
  · exact count_le_of_checkHeader hok

/-- A line that the loader has read is taken by the step that waited for it (R137, R141, R144). -/
theorem State.loadSound.loaderData (h : s.loadSound) (hread : (s.putXmc x).BetweenReads) (line : List Byte) :
    ((s.putXmc x).loaderData line).loadSound := by
  unfold State.loaderData
  split
  · exact absurd ‹_› (h.runs hread.loading hread.running)
  · split
    · exact hread.acceptHeader ‹_›
    · exact hread.failHeader _
  · rename_i hstep
    obtain ⟨hrecords, hindex⟩ := h.betweenRecords hread rfl (.inl hstep)
    exact hrecords.takeRecord hindex line
  · rename_i d chosen i hstep
    obtain ⟨hrecords, hindex⟩ := h.betweenRecords hread rfl (.inr ⟨d, chosen, i, hstep⟩)
    obtain ⟨hfit, hlow, hhigh, hrange, hscope, -, hclear⟩ := h.copying d chosen i hstep
    exact hrecords.takeContent hindex ⟨hfit, hlow, hhigh, hrange, hscope, hclear⟩ i line

/-- A line read of the loader that faulted fails the header or skips the record (R138, R141, R144). -/
theorem State.loadSound.loaderFault (h : s.loadSound) (hread : (s.putXmc x).BetweenReads) :
    (s.putXmc x).loaderFault.loadSound := by
  unfold State.loaderFault
  split
  · exact absurd ‹_› (h.runs hread.loading hread.running)
  · exact hread.failHeader _
  · exact (h.betweenRecords hread rfl (.inl ‹_›)).1.skipRecord _
  · exact (h.betweenRecords hread rfl (.inr ⟨_, _, _, ‹_›⟩)).1.skipRecord _

/-- While a read is in flight no device reset lasts (R82). -/
theorem State.loadSound.running (h : s.loadSound) {r : Read} (hr : s.xmc.inFlight = some r) : s.inReset = false := by
  rw [← Bool.not_eq_true]
  intro hreset
  rw [(h.reset hreset).2] at hr
  cases hr

/-- A grant outside a device reset. -/
theorem State.loadSound.grant (h : s.loadSound) (hrun : s.inReset = false) : s.grant.loadSound := by
  refine h.of_loader (by simp) (by simp) (fun hr => ?_) (fun _ => State.waitsFor_grant) fun hload => ⟨?_, by simp, by simp⟩
  · rw [hrun] at hr; cases hr
  · exact (h.toQuiet hload).of_same (by simp) (by simp) (by simp)

/-- A read that does not serve the loader ends (R73, R76). -/
theorem State.loadSound.of_other_read (h : s.loadSound) (hrun : s.inReset = false) (hother : ∀ l, ¬ s.xmc.servesLoader l)
    (hidle : x.inFlight = none) (hrequest : x.loaderRequest = s.xmc.loaderRequest) : (s.putXmc x).loadSound := by
  refine h.of_loader rfl rfl (fun hr => ?_) (fun _ hw => hw.of_read_end hother hrequest hidle) fun hload =>
    ⟨(h.toQuiet hload).of_same rfl rfl fun _ => rfl, rfl, rfl⟩
  rw [hrun] at hr
  cases hr

/-- A line slot's content is no concern of a load (R47). -/
theorem State.loadSound.putSlot (h : s.loadSound) (p : Port) (k : SlotId) (slot : LineSlot) :
    (s.putSlot p k slot).loadSound := by
  refine h.of_loader rfl rfl (fun _ => rfl) (fun _ => id) fun hload =>
    ⟨(h.toQuiet hload).of_same rfl rfl fun q => ?_, rfl, rfl⟩
  rw [State.putSlot_streams, PerPort.get_set]
  split
  · simp [*]
  · rfl

/-- The read that serves the loader ends: a load is in progress, and the loader has no other read outstanding (R81). -/
theorem State.loadSound.betweenReads (h : s.loadSound) (hrun : s.inReset = false) {line : Nat}
    (hserves : s.xmc.servesLoader line) (hidle : x.inFlight = none) (hrequest : x.loaderRequest = s.xmc.loaderRequest) :
    (s.putXmc x).BetweenReads := by
  have hwaits := h.waitsFor
  have hload : s.loader.ready = false := by
    rw [← Bool.not_eq_true]
    intro hready
    have hnone : s.loaderLine = none := by simp only [State.loaderLine, h.waits hready]
    rw [hnone] at hwaits
    exact hwaits.2 line hserves
  have hnone : s.xmc.loaderRequest = none := by
    cases hline : s.loaderLine with
    | none => rw [hline] at hwaits; exact hwaits.1
    | some l =>
      rw [hline] at hwaits
      obtain ⟨-, hno⟩ | ⟨hnone, -⟩ := hwaits
      · exact absurd hserves (hno line)
      · exact hnone
  exact ⟨(h.toQuiet hload).of_same rfl rfl fun _ => rfl, hload, hrun, hrequest.trans hnone,
    by simp [Xmc.servesLoader, hidle]⟩

/-- The end of a line read keeps a load sound, whoever it served (R73, R76). -/
theorem State.loadSound.endRead (h : s.loadSound) {r : Read} (hr : s.xmc.inFlight = some r)
    (result : Option (List Byte)) : (s.endRead r result).loadSound := by
  have hrun := h.running hr
  rw [State.endRead_cases]
  generalize hx : (if result.isNone then _ else _ : Xmc) = x
  have hidle : x.inFlight = none := by rw [← hx]; split <;> rfl
  have hrequest : x.loaderRequest = s.xmc.loaderRequest := by rw [← hx]; split <;> rfl
  have hserves : ∀ l, s.xmc.servesLoader l ↔ r.requester = .loader ∧ r.orphan = false ∧ r.line = l := by
    simp [Xmc.servesLoader, hr]
  by_cases horphan : r.orphan = true
  · rw [if_pos horphan]
    exact (h.of_other_read hrun (fun l hl => by simp [hserves, horphan] at hl) hidle hrequest).grant hrun
  rw [if_neg horphan]
  rw [Bool.not_eq_true] at horphan
  split
  · rename_i hslot
    have hend := h.of_other_read hrun (fun l hl => by simp [hserves, hslot] at hl) hidle hrequest
    exact (hend.putSlot _ _ _).grant (by simpa using hrun)
  · rename_i line hloader
    have hread := h.betweenReads hrun ((hserves _).mpr ⟨hloader, horphan, rfl⟩) hidle hrequest
    exact (h.loaderData hread line).grant (by simpa using hrun)
  · rename_i hloader
    have hread := h.betweenReads hrun ((hserves _).mpr ⟨hloader, horphan, rfl⟩) hidle hrequest
    exact (h.loaderFault hread).grant (by simpa using hrun)

end

/-! ### Every command, and the step -/

section
variable {c : Instr} {s s' t : State} {p : Port} {r : Response}

theorem seekOwner_loadSound {line : Nat} (hl : s.loadSound) (hready : s.loader.ready = true)
    (h : seekOwner p line s = .ok (s', r)) : s'.loadSound := by
  unfold seekOwner at h
  (repeat' split at h) <;> cases h
  · exact hl
  · exact hl.of_ready hready (by simp) (by simp) fun _ hw => State.waitsFor_grant (State.waitsFor_openStream hw line)

theorem nextOwner_loadSound (hl : s.loadSound) (hready : s.loader.ready = true) (h : nextOwner p s = .ok (s', r)) :
    s'.loadSound := by
  unfold nextOwner nextStreaming nextDelivers at h
  dsimp only at h
  (repeat' split at h) <;> cases h
  · exact hl
  · exact hl
  · exact hl
  · exact hl.of_ready hready (by simp) (by simp) fun _ hw => State.waitsFor_grant (State.waitsFor_advance hw)
  · exact hl
  · exact hl.of_ready hready (by simp) (by simp) fun _ hw => by simpa using hw
  · exact hl.of_ready hready (by simp) (by simp) fun _ hw =>
      State.waitsFor_grant (State.waitsFor_advance (State.waitsFor_fillSlot hw _))
  · exact hl.of_ready hready (by simp) (by simp) fun _ hw => State.waitsFor_grant (State.waitsFor_fillSlot hw _)

/-- An owner leaves the loader and the external memory controller. -/
def leavesLoader (owner : State → Answer) : Prop :=
  ∀ s s' r, owner s = .ok (s', r) → s'.loader = s.loader ∧ s'.inReset = s.inReset ∧ s'.xmc = s.xmc

/-- Outside a load such an owner has no part in what a load rests on. -/
theorem leavesLoader.loadSound {owner : State → Answer} (ho : leavesLoader owner) (hl : s.loadSound)
    (hready : s.loader.ready = true) (h : owner s = .ok (s', r)) : s'.loadSound := by
  obtain ⟨hloader, hreset, hxmc⟩ := ho s s' r h
  exact hl.of_ready hready hloader hreset fun _ => hxmc ▸ id

theorem claimOwner_leavesLoader {wait : Nat} : leavesLoader (claimOwner p wait) := by
  intro s s' r h
  unfold claimOwner claimBody at h
  (repeat' split at h) <;> cases h <;> simp

theorem addOwner_leavesLoader {tag : BitVec 16} {line length : Nat} {scope : Byte} {sum : BitVec 16} :
    leavesLoader (addOwner p tag line length scope sum) := by
  intro s s' r h
  unfold addOwner addBody at h
  (repeat' split at h) <;> cases h <;> simp

theorem fillOwner_leavesLoader {slot index : Nat} {data : List Byte} : leavesLoader (fillOwner p slot index data) := by
  intro s s' r h
  unfold fillOwner fillBody at h
  (repeat' split at h) <;> cases h <;> simp

theorem removeOwner_leavesLoader {slot : Nat} : leavesLoader (removeOwner p slot) := by
  intro s s' r h
  unfold removeOwner removeBody at h
  (repeat' split at h) <;> cases h <;> simp

theorem commitOwner_leavesLoader : leavesLoader (commitOwner p) := by
  intro s s' r h
  unfold commitOwner commitBody at h
  (repeat' split at h) <;> cases h <;> simp

theorem abortOwner_leavesLoader : leavesLoader (abortOwner p) := by
  intro s s' r h
  unfold abortOwner at h
  (repeat' split at h) <;> cases h <;> simp

theorem portSetOwner_leavesLoader {level prefetch mask base size : Byte} :
    leavesLoader (portSetOwner p level prefetch mask base size) := by
  intro s s' r h
  unfold portSetOwner at h
  (repeat' split at h) <;> cases h <;> simp

/-- An accepted RELOAD stops every stream, drain and session, orphans the read in flight, and begins a load (R83, R151). -/
theorem State.reload_loadSound (hrun : s.inReset = false) : s.reload.loadSound := by
  unfold State.reload
  refine State.BetweenReads.beginLoad ⟨⟨rfl, rfl, fun p => ?_, fun p => ?_, rfl⟩, rfl, hrun, rfl, ?_⟩
  · rw [PerPort.get_tabulate]; rfl
  · cases p <;> rfl
  · rintro l ⟨r, hr, -, horphan, -⟩
    obtain ⟨r, -, rfl⟩ := Option.map_eq_some_iff.mp hr
    cases horphan

theorem reloadOwner_loadSound (hl : s.loadSound) (hrun : s.inReset = false) (h : reloadOwner p s = .ok (s', r)) :
    s'.loadSound := by
  unfold reloadOwner at h
  split at h <;> cases h
  · exact (State.reload_loadSound hrun).grant (by simpa using hrun)
  · exact hl

/-- Where no drain runs, a change of binding changes the binding only (R88). -/
theorem State.rebind_of_no_drain (h : s.gen.superseded = none) (p : Port) (b : Option Nat) :
    s.rebind p b = s.putGen { s.gen with bindings := s.gen.bindings.set p b } := by
  unfold State.rebind
  rw [h]

/-- A quiet stream unit that is closed and unbound stays so (R62, R89). -/
theorem State.Quiet.resetStreamPart (h : s.Quiet) (p : Port) :
    (s.resetStreamPart p).Quiet ∧ (s.resetStreamPart p).table = s.table ∧ (s.resetStreamPart p).store = s.store := by
  obtain ⟨hsession, hsup, hidle, hunbound, hcurrent⟩ := h
  unfold State.resetStreamPart
  rw [State.rebind_of_no_drain (by simpa using hsup)]
  refine ⟨⟨by simpa, by simpa, fun q => ?_, fun q => ?_, by simpa⟩, by simp, by simp⟩
  · rw [State.putGen_streams, State.closeIdle_streams, PerPort.get_set]
    split
    · rfl
    · exact hidle q
  · rw [State.putGen_gen, PerPort.get_set]
    split
    · rfl
    · simpa using hunbound q

/-- Without a session the edit controller's part of PORT_RESET is to leave the queue at most (R131). -/
theorem State.Quiet.resetSessionPart (h : s.Quiet) (p : Port) :
    (s.resetSessionPart p).Quiet ∧ (s.resetSessionPart p).table = s.table
      ∧ (s.resetSessionPart p).store = s.store := by
  unfold State.resetSessionPart
  rw [if_neg (by simp [State.isOwner, h.session])]
  split
  · exact ⟨⟨h.session, h.superseded, h.idle, h.unbound, h.current⟩, rfl, rfl⟩
  · exact ⟨h, rfl, rfl⟩

/-- PORT_RESET during a load finds no session, no drain and no binding to end (R149, R182). -/
theorem State.Quiet.portReset (h : s.Quiet) (p : Port) :
    (s.portReset p).Quiet ∧ (s.portReset p).table = s.table ∧ (s.portReset p).store = s.store := by
  obtain ⟨hstream, htable, hstore⟩ := h.resetStreamPart p
  obtain ⟨hsession, htable', hstore'⟩ := hstream.resetSessionPart p
  refine ⟨hsession.of_same (by simp [State.portReset]) (by simp [State.portReset]) fun q => ?_, ?_, ?_⟩
  · simp only [State.portReset, State.putLink_streams, State.putSettings, State.putStream_streams,
      State.resetNoticePart_frame, PerPort.get_set]
    split
    · simp [*]
    · rfl
  · simpa [State.portReset, htable'] using htable
  · simpa [State.portReset, hstore'] using hstore

theorem State.loadSound.portReset (hl : s.loadSound) (hrun : s.inReset = false) (p : Port) :
    (s.portReset p).loadSound := by
  refine hl.of_loader (by simp) (by simp) (fun hr => ?_) (fun _ hw => ?_) fun hload => ?_
  · rw [hrun] at hr; cases hr
  · simpa [State.portReset, State.resetStreamPart, State.closeIdle_xmc] using State.waitsFor_abandonBoth hw
  · obtain ⟨hquiet, htable, hstore⟩ := (hl.toQuiet hload).portReset p
    exact ⟨hquiet, htable, by rw [hstore]⟩

/-- The end of a device reset begins a load (R134, R153). -/
theorem State.loadSound.resetEnd (hl : s.loadSound) (hreset : s.inReset = true) (straps : BitVec 2) :
    (s.resetEnd straps).loadSound := by
  obtain ⟨hload, hxmc⟩ := hl.reset hreset
  have hbetween : ((s.putInReset false).putLoader { s.loader with dirsel := straps }).BetweenReads :=
    ⟨(hl.toQuiet hload).of_same rfl rfl fun _ => rfl, hload, rfl,
      by simp [Xmc.waitsFor, Xmc.servesLoader, hxmc]⟩
  exact hbetween.beginLoad.grant (by simp)

theorem State.deviceReset_loadSound (s : State) : s.deviceReset.loadSound where
  quiet := fun _ => ⟨rfl, rfl, fun p => by cases p <;> exact ⟨rfl, rfl⟩⟩
  waits := by rintro ⟨⟩
  reset := fun _ => ⟨rfl, rfl⟩
  current := fun _ => rfl
  runs := by rintro - ⟨⟩
  reads := ⟨rfl, by rintro l ⟨r, ⟨⟩, -⟩⟩
  records := by rintro (h | ⟨_, _, _, h⟩) <;> cases h
  copying := by rintro _ _ _ ⟨⟩

/-- The expiry of a drain, which no load has (R100, R149). -/
theorem execDrainExpiry_loadSound (hl : s.loadSound) (h : execDrainExpiry s = .next t) : t.loadSound := by
  unfold execDrainExpiry at h
  split at h <;> cases h
  · exact hl
  rename_i g hdue
  have hready : s.loader.ready = true := by
    by_contra hload
    unfold State.drainDue at hdue
    rw [(hl.toQuiet (Bool.eq_false_iff.mpr hload)).superseded] at hdue
    cases hdue
  refine hl.of_ready hready (by simp) (by simp) fun _ hw => ?_
  rw [(State.drainEnd_frame _).2.1]
  exact State.waitsFor_expirePorts hw g allPorts

/-- The expiry of a session, which no load has (R116, R149). -/
theorem execSessionExpiry_loadSound (hl : s.loadSound) (h : execSessionExpiry s = .next t) : t.loadSound := by
  unfold execSessionExpiry at h
  split at h <;> cases h
  · exact hl
  rename_i q hdue
  have hready : s.loader.ready = true := by
    by_contra hload
    unfold State.sessionDue at hdue
    rw [(hl.toQuiet (Bool.eq_false_iff.mpr hload)).session] at hdue
    cases hdue
  exact hl.of_ready hready (by simp) (by simp) (by simp)

theorem execTimebaseTick_loadSound (hl : s.loadSound) (h : execTimebaseTick s = .next t) : t.loadSound := by
  cases h
  refine hl.of_loader rfl rfl (fun _ => rfl) (fun _ => id) fun hload => ⟨?_, rfl, rfl⟩
  obtain ⟨hsession, hsup, hidle, hunbound, hcurrent⟩ := hl.toQuiet hload
  exact ⟨by simp [hsession], hsup, hidle, hunbound, hcurrent⟩

theorem execAccessCompletes_loadSound {xd : Halfword} (hl : s.loadSound) (h : execAccessCompletes xd s = .next t) :
    t.loadSound := by
  unfold execAccessCompletes at h
  dsimp only at h
  split at h
  · cases h; exact hl
  rename_i r hr
  split at h
  · cases h
    refine hl.of_loader rfl rfl (fun hreset => ?_) (fun _ hw => hw.of_same rfl fun l => ?_) fun hload =>
      ⟨(hl.toQuiet hload).of_same rfl rfl fun _ => rfl, rfl, rfl⟩
    · rw [hl.running hr] at hreset; cases hreset
    · simp [Xmc.servesLoader, hr]
  split at h <;> cases h
  exact hl.endRead hr _

theorem exec_loadSound (hl : s.loadSound) (h : exec c s = .next t) : t.loadSound := by
  have hrespond : ∀ (p : Port) (u : State) (r : Response), u.loadSound → (u.respond p r).loadSound := fun p u r hu =>
    hu.of_blocks (by simp) (by simp) (by simp) (by simp) (by simp) (by simp) (by simp) (by simp)
  have request : ∀ {p k payload} {owner : State → Answer}, answeredInLoad k = false →
      (s.loader.ready = true → s.inReset = false → ∀ s' r, owner s = .ok (s', r) → s'.loadSound) →
      s.pointOfAction p k payload owner = .next t → t.loadSound := fun hk ho =>
    State.pointOfAction_keeps hl (hrespond _) fun harr hload =>
      ho (hload.resolve_right (by simp [hk])) harr.not_inReset
  cases c with
  | seek p line => exact request rfl (fun hready _ _ _ => seekOwner_loadSound hl hready) h
  | next p => exact request rfl (fun hready _ _ _ => nextOwner_loadSound hl hready) h
  | portSet p level prefetch mask base size =>
    exact request rfl (fun hready _ _ _ => portSetOwner_leavesLoader.loadSound hl hready) h
  | claim p wait => exact request rfl (fun hready _ _ _ => claimOwner_leavesLoader.loadSound hl hready) h
  | add p tag line length scope sum => exact request rfl (fun hready _ _ _ => addOwner_leavesLoader.loadSound hl hready) h
  | fill p slot index data => exact request rfl (fun hready _ _ _ => fillOwner_leavesLoader.loadSound hl hready) h
  | remove p slot => exact request rfl (fun hready _ _ _ => removeOwner_leavesLoader.loadSound hl hready) h
  | commit p => exact request rfl (fun hready _ _ _ => commitOwner_leavesLoader.loadSound hl hready) h
  | abort p => exact request rfl (fun hready _ _ _ => abortOwner_leavesLoader.loadSound hl hready) h
  | reload p => exact request rfl (fun _ hrun _ _ => reloadOwner_loadSound hl hrun) h
  | portReset p =>
    refine State.pointOfAction_keeps (owner := portResetOwner p) hl (hrespond p) (fun harr _ s' r ho => ?_) h
    cases ho
    exact hl.portReset harr.not_inReset p
  | deviceReset => cases h; exact s.deviceReset_loadSound
  | resetEnd straps =>
    replace h : execResetEnd straps s = .next t := h
    unfold execResetEnd at h
    split at h <;> cases h
    · exact hl.resetEnd ‹_› straps
    · exact hl
  | timebaseTick => exact execTimebaseTick_loadSound hl h
  | drainExpiry => exact execDrainExpiry_loadSound hl h
  | sessionExpiry => exact execSessionExpiry_loadSound hl h
  | accessCompletes xd => exact execAccessCompletes_loadSound hl h
  | readyLimitExceeded =>
    replace h : execReadyLimitExceeded s = .next t := h
    unfold execReadyLimitExceeded at h
    split at h <;> cases h
    · exact hl
    · exact hl.endRead ‹_› _
  | _ =>
    obtain ⟨notices, links, rfl⟩ := exec_of_onlyReports rfl h
    exact hl.of_blocks rfl rfl rfl rfl rfl rfl rfl rfl

end

/-- Settles O54, command by command: during a load only the loader's own reads move it on, and outside one every command but
RELOAD and DEVICE_RESET leaves the loader and its outstanding read. -/
theorem stepKeepsLoads : Obligations.StepKeepsLoads := by
  intro s t hload hstep
  rcases step_cases hstep with ⟨-, rfl⟩ | ⟨c, rest, -, hexec⟩
  · exact hload
  · exact exec_loadSound (hload.putPending rest) hexec

end Sys2Proof.Machine

/-! # Fetch streams (R39 to R60)

Each stream operation changes one port's stream unit and that port's places of the request set. They are said here once, as an
explicit unit and explicit places; the statements about SEEK and NEXT and the laws of the streams and of the outstanding reads
are read off them. -/

namespace Sys2Proof.Machine

/-! ## A stream unit's slots by place and by role -/

section
variable (u : StreamUnit) (k l : SlotId) (x : LineSlot)

@[simp] theorem StreamUnit.ahead_ne_delivery : u.ahead ≠ u.delivery := SlotId.other_ne _
@[simp] theorem StreamUnit.delivery_ne_ahead : u.delivery ≠ u.ahead := SlotId.ne_other _

/-- A slot's place is the delivery slot's or the ahead slot's (R49). -/
theorem StreamUnit.role_cases : k = u.delivery ∨ k = u.ahead := by
  unfold StreamUnit.ahead
  cases k <;> cases u.delivery <;> decide

@[simp] theorem StreamUnit.putSlot_frame :
    (u.putSlot k x).state = u.state ∧ (u.putSlot k x).counter = u.counter ∧ (u.putSlot k x).delivery = u.delivery
      ∧ (u.putSlot k x).ahead = u.ahead ∧ (u.putSlot k x).settings = u.settings := ⟨rfl, rfl, rfl, rfl, rfl⟩

@[simp] theorem StreamUnit.get_putSlot : (u.putSlot k x).slots.get l = if l = k then x else u.slots.get l :=
  PerSlot.get_set ..

/-- The stream unit once its line was delivered (R53 step 2). -/
def StreamUnit.delivered (u : StreamUnit) : StreamUnit := { u.putSlot u.delivery .empty with counter := u.counter + 1 }

@[simp] theorem StreamUnit.delivered_frame :
    u.delivered.state = u.state ∧ u.delivered.counter = u.counter + 1 ∧ u.delivered.delivery = u.delivery
      ∧ u.delivered.ahead = u.ahead ∧ u.delivered.settings = u.settings := ⟨rfl, rfl, rfl, rfl, rfl⟩

@[simp] theorem StreamUnit.get_delivered :
    u.delivered.slots.get l = if l = u.delivery then .empty else u.slots.get l := PerSlot.get_set ..

/-- The stream unit once the last line of its view was delivered (R53 step 3). -/
def StreamUnit.ended (u : StreamUnit) : StreamUnit := { u.delivered with state := .locked }

@[simp] theorem StreamUnit.ended_frame :
    u.ended.state = .locked ∧ u.ended.counter = u.counter + 1 ∧ u.ended.delivery = u.delivery
      ∧ u.ended.ahead = u.ahead ∧ u.ended.settings = u.settings ∧ u.ended.slots = u.delivered.slots :=
  ⟨rfl, rfl, rfl, rfl, rfl, rfl⟩

/-- The stream unit once its line was delivered and the ahead slot took the delivery role (R49, R53 step 4). -/
def StreamUnit.promoted (u : StreamUnit) : StreamUnit := { u.delivered with delivery := u.ahead }

@[simp] theorem StreamUnit.promoted_frame :
    u.promoted.state = u.state ∧ u.promoted.counter = u.counter + 1 ∧ u.promoted.delivery = u.ahead
      ∧ u.promoted.ahead = u.delivery ∧ u.promoted.settings = u.settings ∧ u.promoted.slots = u.delivered.slots :=
  ⟨rfl, rfl, rfl, SlotId.other_other _, rfl, rfl⟩

end

/-! ## One port's stream unit and requests -/

section
variable (s : State) (p : Port) (u : StreamUnit) (v : PerSlot (Option Request)) (k : SlotId) (x : LineSlot)

/-- Port `p` has the stream unit `u` and the requests `v`; all else is as in `s`. -/
def State.withPort : State :=
  { s with streams := s.streams.set p u, xmc := { s.xmc with slotRequests := s.xmc.slotRequests.set p v } }

/-- The requests of a port once its slot `k` was filled with `x`: the request that `x` waits for joins the set (R45, R66). -/
def Settings.placing (settings : Settings) (k : SlotId) (x : LineSlot) (v : PerSlot (Option Request)) :
    PerSlot (Option Request) :=
  v.set k ((settings.requestFor x).or (v.get k))

theorem State.putStream_eq_withPort : s.putStream p u = s.withPort p u (s.xmc.slotRequests.get p) := by
  simp [State.putStream, State.putStreams, State.withPort]

@[simp] theorem State.withPort_streams : (s.withPort p u v).streams = s.streams.set p u := rfl

@[simp] theorem State.withPort_xmc :
    (s.withPort p u v).xmc = { s.xmc with slotRequests := s.xmc.slotRequests.set p v } := rfl

@[simp] theorem State.withPort_frame :
    (s.withPort p u v).table = s.table ∧ (s.withPort p u v).store = s.store ∧ (s.withPort p u v).gen = s.gen
      ∧ (s.withPort p u v).edit = s.edit ∧ (s.withPort p u v).loader = s.loader
      ∧ (s.withPort p u v).notices = s.notices ∧ (s.withPort p u v).links = s.links
      ∧ (s.withPort p u v).inReset = s.inReset ∧ (s.withPort p u v).pending = s.pending := by
  simp [State.withPort]

theorem Settings.placing_get (settings : Settings) (l : SlotId) :
    (settings.placing k x v).get l = if l = k then (settings.requestFor x).or (v.get l) else v.get l := by
  unfold Settings.placing
  by_cases h : l = k
  · subst h; simp
  · simp [h]

/-- What the ahead slot holds once it was refilled under generation `g` for port line `n`: the line by lookup when prefetch is on
and the line is in the view, else nothing (R49). -/
def State.aheadByLookup (s : State) (p : Port) (g n : Nat) : LineSlot :=
  if (s.streams.get p).settings.prefetch = true ∧ n < (s.streams.get p).settings.viewLines then s.slotByLookup p g n
  else .empty

/-- `t` gives port `p` the lookups of `s` under generation `g`, with the same settings and the same bytes. -/
structure State.SameLookups (s t : State) (p : Port) (g : Nat) : Prop where
  lookup : ∀ n, lookup t.table t.gen.current t.gen.superseded g p n = lookup s.table s.gen.current s.gen.superseded g p n
  settings : (t.streams.get p).settings = (s.streams.get p).settings
  byte : t.store.byte = s.store.byte

variable {s p} in
theorem State.SameLookups.slot {t : State} {g : Nat} (h : s.SameLookups t p g) (n : Nat) :
    t.slotByLookup p g n = s.slotByLookup p g n := by
  unfold State.slotByLookup
  rw [h.lookup, h.settings]
  simp only [Store.readLine, h.byte]

variable {s p} in
theorem State.SameLookups.ahead {t : State} {g : Nat} (h : s.SameLookups t p g) (n : Nat) :
    t.aheadByLookup p g n = s.aheadByLookup p g n := by
  unfold State.aheadByLookup
  rw [h.settings, h.slot]

variable {s p u} in
theorem State.sameLookups_withPort {g : Nat} (h : u.settings = (s.streams.get p).settings) :
    s.SameLookups (s.withPort p u v) p g :=
  ⟨fun _ => rfl, by simpa using h, rfl⟩

/-- A slot filled by lookup (R45). -/
theorem State.fillSlot_eq (n : Nat) :
    s.fillSlot p k n = s.withPort p ((s.streams.get p).putSlot k (s.slotByLookup p (s.boundGeneration p) n))
      ((s.streams.get p).settings.placing k (s.slotByLookup p (s.boundGeneration p) n) (s.xmc.slotRequests.get p)) :=
  State.ext_fields (s.fillSlot_streams p k n) (s.fillSlot_xmc_eq p k n) (by simp) (by simp) (by simp) (by simp) (by simp)
    (by simp) (by simp) (by simp) (by simp)

variable {s p u} in
/-- A slot filled by lookup, of a port whose settings are unchanged (R45). -/
theorem State.fillSlot_withPort (h : u.settings = (s.streams.get p).settings) (n : Nat) :
    (s.withPort p u v).fillSlot p k n = s.withPort p (u.putSlot k (s.slotByLookup p (s.boundGeneration p) n))
      ((s.streams.get p).settings.placing k (s.slotByLookup p (s.boundGeneration p) n) v) := by
  have hgen : (s.withPort p u v).boundGeneration p = s.boundGeneration p := rfl
  rw [State.fillSlot_eq, hgen, (State.sameLookups_withPort v h).slot]
  simp [State.withPort, h]

variable {s p u} in
/-- An EMPTY ahead slot refilled (R49, R50 step 5). -/
theorem State.fillAhead_withPort (h : u.settings = (s.streams.get p).settings) (hempty : u.aheadSlot = .empty) :
    (s.withPort p u v).fillAhead p
      = s.withPort p (u.putSlot u.ahead (s.aheadByLookup p (s.boundGeneration p) (u.counter + 1)))
          ((s.streams.get p).settings.placing u.ahead (s.aheadByLookup p (s.boundGeneration p) (u.counter + 1)) v) := by
  unfold State.fillAhead State.aheadByLookup
  simp only [State.withPort_streams, PerPort.get_set_same, h, Bool.and_eq_true, decide_eq_true_eq]
  split
  · exact State.fillSlot_withPort v _ h _
  · have hslot : u.slots.set u.ahead .empty = u.slots := by
      rw [← hempty]
      unfold StreamUnit.aheadSlot
      cases u.ahead <;> rfl
    have hplaces : (s.streams.get p).settings.placing u.ahead .empty v = v := by
      unfold Settings.placing Settings.requestFor
      cases u.ahead <;> rfl
    rw [StreamUnit.putSlot, hslot, hplaces]

end

/-! ## A delivery (R49, R53) -/

section
variable {s : State} {p : Port} {u : StreamUnit}

/-- A delivery by its three cases (R53 steps 2 to 4). -/
theorem State.advance_eq (hu : s.streams.get p = u) :
    s.advance p =
      if u.counter + 1 = u.settings.viewLines then s.putStream p u.ended
      else if u.aheadSlot = .empty then
        ((s.putStream p u.delivered).fillSlot p u.delivery (u.counter + 1)).fillAhead p
      else (s.putStream p u.promoted).fillAhead p := by
  subst hu
  rfl

/-- At the end of the view (R53 step 3). -/
theorem State.advance_of_end (hu : s.streams.get p = u) (hend : u.counter + 1 = u.settings.viewLines) :
    s.advance p = s.withPort p u.ended (s.xmc.slotRequests.get p) := by
  rw [State.advance_eq hu, if_pos hend, State.putStream_eq_withPort]

/-- An EMPTY ahead slot keeps its role: both slots are filled (R49, R53 step 4). -/
theorem State.advance_of_empty (hu : s.streams.get p = u) (hend : u.counter + 1 ≠ u.settings.viewLines)
    (hempty : u.aheadSlot = .empty) :
    s.advance p =
      let x := s.slotByLookup p (s.boundGeneration p) (u.counter + 1)
      let y := s.aheadByLookup p (s.boundGeneration p) (u.counter + 2)
      s.withPort p ((u.delivered.putSlot u.delivery x).putSlot u.ahead y)
        (u.settings.placing u.ahead y (u.settings.placing u.delivery x (s.xmc.slotRequests.get p))) := by
  rw [State.advance_eq hu, if_neg hend, if_pos hempty, State.putStream_eq_withPort,
    State.fillSlot_withPort _ _ (by simp [hu]), State.fillAhead_withPort _ (by simp [hu])
      (by simpa [StreamUnit.aheadSlot] using hempty), hu]
  simp

/-- Another ahead slot takes the delivery role, and the delivered slot is refilled as the ahead slot (R49, R53 step 4). -/
theorem State.advance_of_ahead (hu : s.streams.get p = u) (hend : u.counter + 1 ≠ u.settings.viewLines)
    (hahead : u.aheadSlot ≠ .empty) :
    s.advance p =
      let y := s.aheadByLookup p (s.boundGeneration p) (u.counter + 2)
      s.withPort p (u.promoted.putSlot u.delivery y) (u.settings.placing u.delivery y (s.xmc.slotRequests.get p)) := by
  rw [State.advance_eq hu, if_neg hend, if_neg hahead, State.putStream_eq_withPort,
    State.fillAhead_withPort _ (by simp [hu]) (by simp [StreamUnit.aheadSlot]), hu]
  simp

end

/-! ## An accepted SEEK (R50) -/

section
variable (s : State) (p : Port)

/-- The state once the port's old slots were abandoned and the port bound to C (R50 steps 1 and 2). -/
def State.unseated : State := (s.abandonBoth p).rebind p (some s.gen.current)

@[simp] theorem State.unseated_frame :
    (s.unseated p).xmc = (s.abandonBoth p).xmc ∧ (s.unseated p).edit = s.edit ∧ (s.unseated p).loader = s.loader
      ∧ (s.unseated p).notices = s.notices ∧ (s.unseated p).links = s.links ∧ (s.unseated p).inReset = s.inReset
      ∧ (s.unseated p).pending = s.pending := by
  simp [State.unseated]

@[simp] theorem State.unseated_streams : (s.unseated p).streams
    = s.streams.set p { s.streams.get p with slots := ⟨.empty, .empty⟩ } := by
  simp [State.unseated, State.abandonBoth_streams]

@[simp] theorem State.unseated_gen : (s.unseated p).gen.current = s.gen.current
    ∧ (s.unseated p).gen.bindings = s.gen.bindings.set p (some s.gen.current) := by
  simp [State.unseated, State.rebind_gen]

/-- Lookups under C are what they were: the end of a drain frees only entries not visible under C (R14, R99). -/
theorem State.sameLookups_unseated : s.SameLookups (s.unseated p) p s.gen.current where
  lookup := fun n => by
    unfold State.unseated
    rcases (s.abandonBoth p).rebind_cases p (some s.gen.current) with ⟨h, -⟩ | ⟨g, -, -, -, h⟩ <;> rw [h]
    · simp
    · simpa [State.drainEnd_effect] using lookup_drainEnd s s.gen.superseded n
  settings := by simp
  byte := by
    funext n i
    simpa [State.unseated] using (s.abandonBoth p).rebind_byte p (some s.gen.current) n i

/-- The stream that an accepted SEEK opens at a port line (R50 steps 3 to 6). -/
def State.openedUnit (s : State) (p : Port) (line : Nat) : StreamUnit :=
  let u := s.streams.get p
  { u with
    state := .streaming
    counter := line
    slots := ((⟨.empty, .empty⟩ : PerSlot LineSlot).set u.delivery (s.slotByLookup p s.gen.current line)).set u.ahead
      (s.aheadByLookup p s.gen.current (line + 1)) }

/-- The places of a port whose two slots were filled hold what each slot waits for (R66). -/
theorem Settings.placing_two (v : Settings) {k l : SlotId} (hkl : l ≠ k) (x y : LineSlot) :
    v.placing l y (v.placing k x ⟨none, none⟩)
      = ⟨v.requestFor ((((⟨.empty, .empty⟩ : PerSlot LineSlot).set k x).set l y).a),
          v.requestFor ((((⟨.empty, .empty⟩ : PerSlot LineSlot).set k x).set l y).b)⟩ := by
  cases k <;> cases l <;> simp_all [Settings.placing, PerSlot.set, PerSlot.get]

/-- An accepted SEEK (R50 steps 1 to 6). -/
theorem State.openStream_eq (line : Nat) :
    s.openStream p line = (s.unseated p).withPort p (s.openedUnit p line)
      ⟨(s.openedUnit p line).settings.requestFor (s.openedUnit p line).slots.a,
        (s.openedUnit p line).settings.requestFor (s.openedUnit p line).slots.b⟩ := by
  have hgen : (s.unseated p).boundGeneration p = s.gen.current := by simp [State.boundGeneration]
  have hplaces : (s.unseated p).xmc.slotRequests.get p = ⟨none, none⟩ := by simp [State.abandonBoth_slotRequests]
  have hempty : ∀ k, (⟨.empty, .empty⟩ : PerSlot LineSlot).get k = .empty := fun k => by cases k <;> rfl
  have hsame := s.sameLookups_unseated p
  unfold State.openStream
  dsimp only
  rw [← State.unseated, State.putStream_eq_withPort, State.fillSlot_withPort _ _ (by exact rfl),
    State.fillAhead_withPort _ (by exact rfl)
      (by simp [StreamUnit.aheadSlot, StreamUnit.ahead, StreamUnit.putSlot, hempty]),
    hgen, hsame.slot, hplaces]
  simp only [State.withPort_streams, State.unseated_streams, PerPort.get_set_same, StreamUnit.putSlot, hsame.ahead]
  exact congrArg (State.withPort _ p _) (Settings.placing_two _ (SlotId.other_ne _) _ _)

end

end Sys2Proof.Machine

namespace Sys2Proof.Machine

/-! ## SEEK and NEXT at their owner -/

section
variable {s : State} {p : Port}

/-- A request that its owner answers (R171, R174), outside a load. -/
theorem exec_seek_owner {line : BitVec 24} {s' : State} {r : Response} (harr : s.arrived p .seek (seekPayload line))
    (hready : s.loader.ready = true) (ho : seekOwner p line.toNat s = .ok (s', r)) :
    exec (.seek p line) s = .next (s'.respond p r) := State.pointOfAction_ok harr (.inl hready) ho

theorem exec_next_owner {s' : State} {r : Response} (harr : s.arrived p .next []) (hready : s.loader.ready = true)
    (ho : nextOwner p s = .ok (s', r)) : exec (.next p) s = .next (s'.respond p r) :=
  State.pointOfAction_ok harr (.inl hready) ho

theorem exec_portSet_owner {level prefetch mask base size : Byte} {s' : State} {r : Response}
    (harr : s.arrived p .portSet [level, prefetch, mask, base, size]) (hready : s.loader.ready = true)
    (ho : portSetOwner p level prefetch mask base size s = .ok (s', r)) :
    exec (.portSet p level prefetch mask base size) s = .next (s'.respond p r) :=
  State.pointOfAction_ok harr (.inl hready) ho

/-- NEXT in STREAMING (R52). -/
theorem nextOwner_streaming (hstate : (s.streams.get p).state = .streaming) (htable : tableInStore s.table = true) :
    nextOwner p s = .ok (nextStreaming p s) := by
  simp [nextOwner, hstate, htable]

/-- NEXT in STREAMING by the state of the delivery slot (R53 to R55). -/
theorem nextStreaming_ready {line : Nat} {source : Source} {data : List Byte}
    (hslot : (s.streams.get p).deliverySlot = .ready line source data) :
    nextStreaming p s = nextDelivers p line source data s := by
  simp [nextStreaming, hslot]

theorem nextOwner_ready {line : Nat} {source : Source} {data : List Byte}
    (hstate : (s.streams.get p).state = .streaming) (htable : tableInStore s.table = true)
    (hslot : (s.streams.get p).deliverySlot = .ready line source data) :
    nextOwner p s = .ok (nextDelivers p line source data s) := by
  rw [nextOwner_streaming hstate htable, nextStreaming_ready hslot]

theorem nextStreaming_waiting {line : Nat} (hslot : (s.streams.get p).deliverySlot = .waiting line) :
    nextStreaming p s = (s, bare .pending) := by
  simp [nextStreaming, hslot]

theorem nextStreaming_faulted {line : Nat} (hslot : (s.streams.get p).deliverySlot = .faulted line) :
    nextStreaming p s = (s.putSlot p (s.streams.get p).delivery .empty,
      ⟨.memFault, field3 ((s.streams.get p).settings.physical line)⟩) := by
  simp [nextStreaming, hslot]

/-- The delivery slot after its fill. -/
theorem State.deliverySlot_fillSlot (n : Nat) :
    ((s.fillSlot p (s.streams.get p).delivery n).streams.get p).deliverySlot
      = s.slotByLookup p (s.boundGeneration p) n := by
  simp [State.fillSlot_eq, StreamUnit.deliverySlot, StreamUnit.putSlot]

/-- NEXT on an EMPTY delivery slot whose line misses places the read again (R56). -/
theorem nextStreaming_miss {line : Nat} (hslot : (s.streams.get p).deliverySlot = .empty)
    (hmiss : s.slotByLookup p (s.boundGeneration p) (s.streams.get p).counter = .waiting line) :
    nextStreaming p s
      = ((s.fillSlot p (s.streams.get p).delivery (s.streams.get p).counter).grant, bare .pending) := by
  simp [nextStreaming, hslot, State.deliverySlot_fillSlot, hmiss]

/-- NEXT on an EMPTY delivery slot whose line hits delivers it (R56). -/
theorem nextStreaming_hit {line : Nat} {source : Source} {data : List Byte}
    (hslot : (s.streams.get p).deliverySlot = .empty)
    (hhit : s.slotByLookup p (s.boundGeneration p) (s.streams.get p).counter = .ready line source data) :
    nextStreaming p s = nextDelivers p line source data
      (s.fillSlot p (s.streams.get p).delivery (s.streams.get p).counter) := by
  simp [nextStreaming, hslot, State.deliverySlot_fillSlot, hhit]

end

/-! ## Refused fetches (R50, R52, R54) -/

/-- Settles O10: each refusal leaves the owner's state, and forms its response. -/
theorem refusedFetchesChangeNothing : Obligations.RefusedFetchesChangeNothing := by
  intro p s hready
  refine ⟨fun line harr hline => exec_seek_owner harr hready ?_, fun st harr hst => exec_next_owner harr hready ?_⟩
  · exact if_pos hline
  · rcases hst with ⟨hidle, rfl⟩ | ⟨hlocked, rfl⟩ | ⟨⟨l, hstale⟩, rfl⟩ | ⟨⟨hstreaming, htable, l, hslot⟩, rfl⟩
    · simp [nextOwner, hidle, bare]
    · simp [nextOwner, hlocked, bare]
    · simp [nextOwner, hstale, bare]
    · rw [nextOwner_streaming hstreaming htable, nextStreaming_waiting hslot]
      rfl

/-! ## PORT_SET (R60) -/

/-- The range check of PORT_SET (R60 step 2). -/
theorem portSetBadArg_iff {level prefetch mask base size : Byte} :
    portSetBadArg level prefetch mask base size = true ↔ 3 < level.toNat ∨ 1 < prefetch.toNat ∨ 32 ≤ mask.toNat
      ∨ 256 < base.toNat + viewSizeOf size.toNat := by
  simp [portSetBadArg, Config.viewUnits, or_assoc]

/-- A view size byte, 0 standing for 256 (R60). -/
theorem viewSizeOf_byte (size : Byte) : viewSizeOf size.toNat = if size = 0 then 256 else size.toNat := by
  have hzero : size.toNat = 0 ↔ size = 0 := BitVec.toNat_inj (y := 0)
  simp [viewSizeOf, Config.viewUnits, hzero]

theorem StreamUnit.isOpen_iff {u : StreamUnit} : u.isOpen = true ↔ u.state = .streaming ∨ u.state = .locked := by
  unfold StreamUnit.isOpen
  cases u.state <;> simp

/-- Settles O15, refusal by refusal in the order of R60. -/
theorem portSetChecksThenApplies : Obligations.PortSetChecksThenApplies := by
  intro p level prefetch mask base size s harr
  refine ⟨fun hload => ?_, fun hready hopen => exec_portSet_owner harr hready ?_,
    fun sz hsz hready hstreaming hlocked => ?_⟩
  · exact State.pointOfAction_loading harr hload rfl
  · exact if_pos (StreamUnit.isOpen_iff.mpr hopen)
  · have hclosed : ¬ (s.streams.get p).isOpen = true := by simp [StreamUnit.isOpen_iff, hstreaming, hlocked]
    rw [← viewSizeOf_byte] at hsz
    subst hsz
    refine ⟨fun hbad => exec_portSet_owner harr hready ?_, fun hlevel hprefetch hmask hview => ⟨mask.setWidth 5, ?_, ?_⟩⟩
    · exact (if_neg hclosed).trans (if_pos (portSetBadArg_iff.mpr hbad))
    · simpa using Nat.mod_eq_of_lt hmask
    · have hgood : ¬ portSetBadArg level prefetch mask base size = true := by
        rw [portSetBadArg_iff]
        omega
      have hflag : decide (prefetch.toNat = 1) = decide (prefetch = 1) :=
        decide_eq_decide.mpr (BitVec.toNat_inj (y := 1))
      refine (exec_portSet_owner harr hready ((if_neg hclosed).trans (if_neg hgood))).trans ?_
      rw [portSetSettings, hflag]
      rfl

/-! ## An accepted SEEK -/

/-- Settles O11: the opened stream and its requests stand in `openStream_eq`. -/
theorem seekOpensStream : Obligations.SeekOpensStream := by
  intro p line s harr hready hline htable
  refine ⟨_, s.openedUnit p line.toNat, exec_seek_owner harr hready
    ((if_neg (Nat.not_le.mpr hline)).trans (if_neg (by simp [htable]))), ?_, rfl, rfl, rfl, ?_, ?_, ?_, ?_, ?_, ?_⟩
  · refine State.ext_fields ?_ rfl rfl rfl rfl ?_ ?_ ?_ ?_ ?_ ?_ <;>
      simp [State.openStream_eq, State.respond_links, State.linksAnswering]
  · simp [StreamUnit.deliverySlot, State.openedUnit, StreamUnit.ahead]
  · simp [StreamUnit.aheadSlot, State.openedUnit, StreamUnit.ahead, State.aheadByLookup]
  · simp [State.openStream_eq]
  · simp [State.openStream_eq]
  · simp [State.openStream_eq, State.grant, State.roles, State.abandonBoth_slotRequests, State.abandonBoth_inFlight]
  · intro n i
    have := congrFun (congrFun (s.sameLookups_unseated p).byte n) i
    simpa [State.openStream_eq] using this

/-! ## A NEXT that delivers -/

/-- The DATA response carries the bound generation, 0 when the port is unbound (R58, R178). -/
theorem dataResponse_eq {s : State} {p : Port} (line : Nat) (source : Source) (data : List Byte) :
    dataResponse line source (s.boundGeneration p) data
      = ⟨.data, field3 line ++ [if source = .overlay then 1 else 0] ++ generationField (s.gen.bindings.get p) ++ data⟩ := by
  cases source <;> rfl

/-- A delivery makes `u` of port `p`'s stream unit and `v` of its requests (R49, R53, R66, R77). -/
structure State.Advances (s : State) (p : Port) (u : StreamUnit) (v : PerSlot (Option Request)) : Prop where
  eq : s.advance p = s.withPort p u v
  counter : u.counter = (s.streams.get p).counter + 1
  settings : u.settings = (s.streams.get p).settings
  atEnd : (s.streams.get p).counter + 1 = (s.streams.get p).settings.viewLines →
    u.state = .locked ∧ u.deliverySlot = .empty ∧ u.aheadSlot = (s.streams.get p).aheadSlot
  onward : (s.streams.get p).counter + 1 ≠ (s.streams.get p).settings.viewLines →
    u.state = (s.streams.get p).state ∧
    u.deliverySlot =
      (if (s.streams.get p).aheadSlot = .empty then
        s.slotByLookup p (s.boundGeneration p) ((s.streams.get p).counter + 1) else (s.streams.get p).aheadSlot) ∧
    u.aheadSlot = s.aheadByLookup p (s.boundGeneration p) ((s.streams.get p).counter + 2)
  kept : ∀ k, k = (s.streams.get p).ahead → (s.streams.get p).aheadSlot ≠ .empty →
    u.slots.get k = (s.streams.get p).slots.get k
  requests : ∀ k, v.get k =
    (if k = (s.streams.get p).ahead ∧ (s.streams.get p).aheadSlot ≠ .empty then s.xmc.slotRequest p k
      else (u.settings.requestFor (u.slots.get k)).or (s.xmc.slotRequest p k))

theorem State.exists_advances (s : State) (p : Port) : ∃ u v, s.Advances p u v := by
  obtain ⟨u, hu⟩ : ∃ u, s.streams.get p = u := ⟨_, rfl⟩
  have hplace : ∀ k, (s.xmc.slotRequests.get p).get k = s.xmc.slotRequest p k := fun _ => rfl
  have hahead : u.slots.get u.ahead = u.aheadSlot := rfl
  by_cases hend : u.counter + 1 = u.settings.viewLines
  · refine ⟨_, _, State.advance_of_end hu hend, ?_, ?_, fun _ => ?_, fun h => absurd (hu ▸ hend) h, fun k hk _ => ?_,
      fun k => ?_⟩ <;> rw [hu] at *
    · simp
    · simp
    · simp [StreamUnit.deliverySlot, StreamUnit.aheadSlot]
    · simp [hk]
    · rcases u.role_cases k with rfl | rfl
      · simp [hplace, Settings.requestFor]
      · by_cases hempty : u.aheadSlot = .empty <;> simp [hplace, hahead, hempty, Settings.requestFor]
  by_cases hempty : u.aheadSlot = .empty
  · refine ⟨_, _, State.advance_of_empty hu hend hempty, ?_, ?_, fun h => absurd (hu ▸ h) hend, fun _ => ?_,
      fun k _ h => absurd (hu ▸ hempty) h, fun k => ?_⟩ <;> rw [hu]
    · simp
    · simp
    · rw [if_pos hempty]
      simp [StreamUnit.deliverySlot, StreamUnit.aheadSlot]
    · rw [if_neg (by simp [hempty])]
      rcases u.role_cases k with rfl | rfl <;> simp [Settings.placing_get, hplace]
  · refine ⟨_, _, State.advance_of_ahead hu hend hempty, ?_, ?_, fun h => absurd (hu ▸ h) hend, fun _ => ?_,
      fun k hk _ => ?_, fun k => ?_⟩ <;> rw [hu] at *
    · simp
    · simp
    · rw [if_neg hempty]
      simp [StreamUnit.deliverySlot, StreamUnit.aheadSlot]
    · simp [hk]
    · rcases u.role_cases k with rfl | rfl <;> simp [Settings.placing_get, hplace, hempty]

/-- Settles O13: what a delivery makes of the stream unit and its requests, and the grant that follows. -/
theorem nextDeliversReadyLine : Obligations.NextDeliversReadyLine := by
  intro p s line source data harr hready hstate htable hslot
  obtain ⟨u, v, h⟩ := s.exists_advances p
  have hexec := exec_next_owner harr hready (nextOwner_ready hstate htable hslot)
  rw [dataResponse_eq] at hexec
  refine ⟨_, u, hexec, ?_, h.counter, h.settings, h.atEnd, fun hend => hstate ▸ h.onward hend, v, ?_, h.requests⟩
  · refine State.ext_fields ?_ rfl ?_ ?_ ?_ ?_ ?_ ?_ ?_ ?_ ?_ <;>
      simp [h.eq, State.respond_links, State.linksAnswering]
  · simp [h.eq, State.grant, State.roles]

/-! ## A NEXT on a FAULTED or an EMPTY slot -/

section
variable {x : Xmc} {q : Requester} {r : Request} (roles : PerPort SlotId)

/-- No grant is taken while a read is in flight (R67). -/
theorem Xmc.grant_of_busy (h : x.inFlight ≠ none) : x.grant roles = x := by
  rcases x.grant_cases roles with ⟨hg, -⟩ | ⟨hidle, -⟩
  · exact hg
  · exact absurd hidle h

/-- The only request of the set is granted at once by an idle controller (R67, R68). -/
theorem Xmc.grant_of_only (hidle : x.inFlight = none) (hr : x.requestOf q = some r)
    (honly : ∀ q', q' ≠ q → x.requestOf q' = none) :
    x.grant roles = { (x.remove q).ageAll with
      inFlight := some ⟨q, r.line, [], false⟩, pointer := pointerAfter x.pointer q } := by
  rcases x.grant_cases roles with ⟨hg, -⟩ | ⟨-, q', r', -, hr', hg⟩
  · have hnone := Xmc.requestOf_of_grant_idle (hg.symm ▸ hidle : (x.grant roles).inFlight = none) q
    cases hr.symm.trans hnone
  · have hq : q' = q := by
      by_contra hne
      cases hr'.symm.trans (honly q' hne)
    subst hq
    cases hr.symm.trans hr'
    exact hg

/-- What is left of the set after such a grant is nothing (R67). -/
theorem Xmc.requestOf_grant_of_only (hidle : x.inFlight = none) (hr : x.requestOf q = some r)
    (honly : ∀ q', q' ≠ q → x.requestOf q' = none) (q' : Requester) : (x.grant roles).requestOf q' = none := by
  have hset : (x.grant roles).requestOf q' = (x.remove q).ageAll.requestOf q' := by
    rw [Xmc.grant_of_only roles hidle hr honly]
    cases q' <;> rfl
  rw [hset, Xmc.requestOf_ageAll, Xmc.requestOf_remove]
  split
  · rfl
  · rw [honly q' ‹_›]
    rfl

/-- Reading a requester's place after a line slot's place was written. -/
theorem Xmc.requestOf_putSlotRequest (x : Xmc) (p : Port) (k : SlotId) (r : Option Request) (q : Requester) :
    (x.putSlotRequest p k r).requestOf q = if q = .slot p k then r else x.requestOf q := by
  cases q <;> simp [Xmc.slotRequest_putSlotRequest]

end

/-- A slot filled READY places no request (R45). -/
theorem State.fillSlot_of_hit {s : State} {p : Port} {k : SlotId} {n line : Nat} {source : Source} {data : List Byte}
    (h : s.slotByLookup p (s.boundGeneration p) n = .ready line source data) :
    s.fillSlot p k n = s.putSlot p k (.ready line source data) := by
  have hplaces : (s.streams.get p).settings.placing k (.ready line source data) (s.xmc.slotRequests.get p)
      = s.xmc.slotRequests.get p := by
    unfold Settings.placing Settings.requestFor
    cases k <;> rfl
  rw [State.fillSlot_eq, h, hplaces, ← State.putStream_eq_withPort]
  rfl

/-- A slot filled WAITING places its request (R45, R66). -/
theorem State.fillSlot_of_miss {s : State} {p : Port} {k : SlotId} {n line : Nat}
    (h : s.slotByLookup p (s.boundGeneration p) n = .waiting line) :
    s.fillSlot p k n = (s.putSlot p k (.waiting line)).putXmc (s.xmc.putSlotRequest p k
      (some ⟨(s.streams.get p).settings.physical line, (s.streams.get p).settings.level, 0⟩)) := by
  rw [State.fillSlot_eq, h]
  rfl

/-- A slot's content is no concern of the roles (R65). -/
theorem State.roles_putSlot (s : State) (p : Port) (k : SlotId) (x : LineSlot) : (s.putSlot p k x).roles = s.roles := by
  refine PerPort.ext_get fun q => ?_
  simp only [State.roles, PerPort.get_tabulate, State.putSlot_streams, PerPort.get_set]
  split
  · simp [*]
  · rfl

/-- A NEXT whose line misses places the read of the delivery slot again (R56). -/
theorem exec_next_miss {s : State} {p : Port} {line : Nat} (harr : s.arrived p .next []) (hready : s.loader.ready = true)
    (hstate : (s.streams.get p).state = .streaming) (htable : tableInStore s.table = true)
    (hslot : (s.streams.get p).deliverySlot = .empty)
    (hmiss : s.slotByLookup p (s.boundGeneration p) (s.streams.get p).counter = .waiting line) :
    exec (.next p) s = .next { s with
      streams := s.streams.set p { s.streams.get p with
        slots := (s.streams.get p).slots.set (s.streams.get p).delivery (.waiting line) }
      xmc := (s.xmc.putSlotRequest p (s.streams.get p).delivery
        (some ⟨(s.streams.get p).settings.physical line, (s.streams.get p).settings.level, 0⟩)).grant s.roles
      links := s.linksAnswering p ⟨.pending, []⟩ } := by
  rw [exec_next_owner harr hready
    ((nextOwner_streaming hstate htable).trans (congrArg _ (nextStreaming_miss hslot hmiss))),
    State.fillSlot_of_miss hmiss, ← State.roles_putSlot s p (s.streams.get p).delivery (.waiting line)]
  rfl

/-- Settles O14: the fault is reported; a miss places the request, which an idle controller with no other request takes at once;
a hit is delivered from the filled slot. -/
theorem nextOnUnreadySlot : Obligations.NextOnUnreadySlot := by
  intro p s harr hready hstate htable
  refine ⟨fun line hslot => ⟨_, rfl, ?_⟩, fun hslot hmiss => ?_, fun data hslot hhit => ?_⟩
  · exact exec_next_owner harr hready ((nextOwner_streaming hstate htable).trans (congrArg _ (nextStreaming_faulted hslot)))
  · refine ⟨_, _, exec_next_miss harr hready hstate htable hslot hmiss, rfl, rfl, rfl, fun hbusy => ?_,
      fun hidle hempty => ?_⟩
    · dsimp only
      rw [Xmc.grant_of_busy s.roles (by simpa using hbusy)]
      exact ⟨by simp, by simp, by simp [Xmc.slotRequest_putSlotRequest],
        fun q hq => (Xmc.requestOf_putSlotRequest _ _ _ _ q).trans (if_neg hq)⟩
    · dsimp only
      generalize hx : s.xmc.putSlotRequest p _ _ = x
      have hset := fun q => congrArg (Xmc.requestOf · q) hx.symm
      simp only [Xmc.requestOf_putSlotRequest] at hset
      have hr := (hset _).trans (if_pos rfl)
      have honly : ∀ q, q ≠ _ → x.requestOf q = none := fun q hq => (hset q).trans ((if_neg hq).trans (hempty q))
      have hidle' : x.inFlight = none := by simpa [← hx] using hidle
      refine ⟨?_, ?_, Xmc.requestOf_grant_of_only s.roles hidle' hr honly⟩ <;>
        simp [Xmc.grant_of_only s.roles hidle' hr honly, pointerAfter]
  · have ho : nextOwner p s = .ok (nextDelivers p (s.streams.get p).counter .overlay data
        (s.putSlot p (s.streams.get p).delivery (.ready (s.streams.get p).counter .overlay data))) := by
      rw [nextOwner_streaming hstate htable, nextStreaming_hit hslot hhit, State.fillSlot_of_hit hhit]
    refine ⟨_, exec_next_owner harr hready ho, exec_next_owner (s := s.putSlot p _ _) harr hready
      (nextOwner_ready (s := s.putSlot p _ _) ?_ htable ?_)⟩
    · simpa [State.putSlot_streams] using hstate
    · simp [State.putSlot_streams, StreamUnit.deliverySlot]

end Sys2Proof.Machine

/-! # The laws of the streams and of the outstanding reads (R40 to R46, R65, R67) -/

namespace Sys2Proof.Machine

/-! ## What commands do to the stream units -/

/-- `t` has the stream units, the bindings, the controller and the loader of `s`. -/
structure State.SameFetching (s t : State) : Prop where
  streams : t.streams = s.streams
  bindings : t.gen.bindings = s.gen.bindings
  xmc : t.xmc = s.xmc
  loader : t.loader = s.loader

/-- The commands that fetch nothing and end no fetch: the reports, the edits but RELOAD, the tick and the session's expiry. -/
def leavesFetching : Instr → Bool
  | .status .. | .tableRead .. | .noticeTake .. | .badFrame .. | .badKind .. | .selectAsserted .. | .frameDiscarded ..
  | .responseLost .. | .byteReceived .. | .byteSent .. | .selectReleased .. | .claim .. | .add .. | .fill .. | .remove ..
  | .commit .. | .abort .. | .timebaseTick | .sessionExpiry => true
  | .seek .. | .next .. | .portSet .. | .reload .. | .portReset .. | .deviceReset | .resetEnd .. | .drainExpiry
  | .accessCompletes .. | .readyLimitExceeded => false

section
variable {c : Instr} {s s' t : State} {p : Port} {r : Response}

theorem State.SameFetching.refl (s : State) : s.SameFetching s := ⟨rfl, rfl, rfl, rfl⟩

theorem exec_of_leavesFetching (hc : leavesFetching c = true) (h : exec c s = .next t) : s.SameFetching t := by
  have request : ∀ {p k payload} {owner : State → Answer}, (∀ s' r, owner s = .ok (s', r) → s.SameFetching s') →
      s.pointOfAction p k payload owner = .next t → s.SameFetching t := fun ho =>
    State.pointOfAction_keeps (.refl s) (fun u r hu => ⟨by simp [hu.streams], by simp [hu.bindings], by simp [hu.xmc],
      by simp [hu.loader]⟩) (fun _ _ => ho)
  cases c with
  | claim p wait =>
    refine request (owner := claimOwner p wait.toNat) (fun s' r ho => ?_) h
    unfold claimOwner claimBody at ho
    (repeat' split at ho) <;> cases ho <;> constructor <;> simp
  | add p tag line length scope sum =>
    refine request (fun s' r ho => ?_) h
    unfold addOwner addBody at ho
    (repeat' split at ho) <;> cases ho <;> constructor <;> simp
  | fill p slot index data =>
    refine request (fun s' r ho => ?_) h
    unfold fillOwner fillBody at ho
    (repeat' split at ho) <;> cases ho <;> constructor <;> simp
  | remove p slot =>
    refine request (fun s' r ho => ?_) h
    unfold removeOwner removeBody at ho
    (repeat' split at ho) <;> cases ho <;> constructor <;> simp
  | commit p =>
    refine request (fun s' r ho => ?_) h
    unfold commitOwner commitBody at ho
    (repeat' split at ho) <;> cases ho <;> constructor <;> simp [State.commitStep_bindings]
  | abort p =>
    refine request (fun s' r ho => ?_) h
    unfold abortOwner at ho
    (repeat' split at ho) <;> cases ho <;> constructor <;> simp
  | timebaseTick => cases h; exact ⟨rfl, rfl, rfl, rfl⟩
  | sessionExpiry =>
    replace h : execSessionExpiry s = .next t := h
    unfold execSessionExpiry at h
    split at h <;> cases h
    · exact .refl s
    · constructor <;> simp
  | seek | next | portSet | reload | portReset | deviceReset | resetEnd | drainExpiry | accessCompletes
  | readyLimitExceeded => cases hc
  | _ =>
    obtain ⟨notices, links, rfl⟩ := exec_of_onlyReports rfl h
    exact ⟨rfl, rfl, rfl, rfl⟩

/-- All that a SEEK can do at its owner: a refusal, or the opened stream with the grant that follows (R50). -/
theorem seekOwner_cases {line : Nat} (h : seekOwner p line s = .ok (s', r)) :
    s' = s ∨ (line < (s.streams.get p).settings.viewLines ∧ s' = (s.openStream p line).grant) := by
  unfold seekOwner at h
  (repeat' split at h) <;> cases h
  · exact .inl rfl
  · exact .inr ⟨Nat.not_le.mp ‹_›, rfl⟩

/-- All that a NEXT can do at its owner: an answer alone, a fault taken from the delivery slot, or from the state `b` with the delivery
slot READY or filled anew, a delivery if that slot is READY, with the grant that follows (R52 to R56). -/
theorem nextOwner_cases (h : nextOwner p s = .ok (s', r)) :
    s' = s ∨ ((s.streams.get p).state = .streaming ∧
      ((∃ line, (s.streams.get p).deliverySlot = .faulted line ∧ s' = s.putSlot p (s.streams.get p).delivery .empty) ∨
        ∃ b, (b = s ∨ ((s.streams.get p).deliverySlot = .empty ∧
              b = s.fillSlot p (s.streams.get p).delivery (s.streams.get p).counter)) ∧
          (s' = b.grant ∨ (s' = (b.advance p).grant ∧
            ∃ line source data, (b.streams.get p).deliverySlot = .ready line source data)))) := by
  unfold nextOwner at h
  split at h
  · cases h; exact .inl rfl
  · cases h; exact .inl rfl
  · cases h; exact .inl rfl
  · rename_i hstate
    split at h
    · cases h
    replace h : nextStreaming p s = (s', r) := by simpa using h
    cases hslot : (s.streams.get p).deliverySlot with
    | ready line source data =>
      rw [nextStreaming_ready hslot] at h
      cases h
      exact .inr ⟨hstate, .inr ⟨s, .inl rfl, .inr ⟨rfl, line, source, data, hslot⟩⟩⟩
    | waiting line =>
      rw [nextStreaming_waiting hslot] at h
      cases h
      exact .inl rfl
    | faulted line =>
      rw [nextStreaming_faulted hslot] at h
      cases h
      exact .inr ⟨hstate, .inl ⟨line, rfl, rfl⟩⟩
    | empty =>
      refine .inr ⟨hstate, .inr ⟨_, .inr ⟨rfl, rfl⟩, ?_⟩⟩
      simp only [nextStreaming, hslot] at h
      split at h <;> cases h
      · exact .inr ⟨rfl, _, _, _, ‹_›⟩
      · exact .inl rfl

end

/-! ## What the loader does to the stream units -/

/-- `u` has the stream units, the controller, the bindings and the port defaults of `s`, and a pending record in range if `s` has. -/
structure State.SameDefaults (s u : State) : Prop where
  streams : u.streams = s.streams
  bindings : u.gen.bindings = s.gen.bindings
  xmc : u.xmc = s.xmc
  defaults : u.loader.defaults = s.loader.defaults
  pending : ∀ d, u.loader.pendingRecord = some d → s.loader.pendingRecord = some d ∨ d.sound

/-- All that a line taken by the loader, or its fault, does to the stream units and the controller: nothing, the loader's next
request, or the end of the load (R136 to R148). -/
inductive State.LoaderMoves (s : State) : State → Prop
  | drops : s.LoaderMoves s
  | reads {u : State} (hu : s.SameDefaults u) (step : LoaderStep) (line : Nat) : s.LoaderMoves (u.loaderRead step line)
  | ends {u : State} (hu : s.SameDefaults u) : s.LoaderMoves u.endLoad

section
variable {s u : State}

theorem State.SameDefaults.refl (s : State) : s.SameDefaults s := ⟨rfl, rfl, rfl, rfl, fun _ => .inl⟩

/-- The table, the store, the report and the counts of the loader are no concern of the streams. -/
theorem State.SameDefaults.next {v : State} (h : s.SameDefaults u) (hstreams : v.streams = u.streams) (hgen : v.gen = u.gen)
    (hxmc : v.xmc = u.xmc) (hdefaults : v.loader.defaults = u.loader.defaults)
    (hpending : v.loader.pendingRecord = u.loader.pendingRecord) : s.SameDefaults v :=
  ⟨hstreams.trans h.streams, hgen ▸ h.bindings, hxmc.trans h.xmc, hdefaults.trans h.defaults,
    fun d hd => h.pending d (hpending ▸ hd)⟩

theorem State.SameDefaults.beginRecord (h : s.SameDefaults u) (i : Nat) : s.LoaderMoves (u.beginRecord i) := by
  unfold State.beginRecord
  dsimp only
  split
  · refine .reads ?_ _ _
    exact h.next rfl rfl rfl rfl rfl
  · refine .ends ?_
    exact h.next rfl rfl rfl rfl rfl

theorem State.SameDefaults.skipRecord (h : s.SameDefaults u) (cause : SkipCause) : s.LoaderMoves (u.skipRecord cause) := by
  rw [State.skipRecord_eq]
  refine State.SameDefaults.beginRecord ?_ _
  exact h.next rfl rfl rfl rfl rfl

theorem State.SameDefaults.placeRecord (h : s.SameDefaults u) (d : DirRecord) (chosen : Nat) :
    s.LoaderMoves (u.placeRecord d chosen) := by
  cases hslot : lowestFree u.table with
  | none =>
    rw [State.placeRecord_of_full hslot]
    exact h.skipRecord _
  | some slot =>
    rw [State.placeRecord_of_free hslot]
    refine State.SameDefaults.beginRecord ?_ _
    exact h.next rfl rfl rfl rfl rfl

/-- The built-in defaults are in range (R140). -/
theorem Defaults.builtIn_sound : Defaults.builtIn.sound := fun p => by cases p <;> exact Settings.reset_sound

theorem State.failHeader_moves (s : State) (cause : HeaderCause) : s.LoaderMoves (s.failHeader cause) :=
  .ends ⟨rfl, rfl, rfl, rfl, fun d hd => .inr (by cases hd; exact Defaults.builtIn_sound)⟩

/-- A view size byte stands for at least one unit (R60, R139). -/
theorem one_le_viewSizeOf (b : Nat) : 1 ≤ viewSizeOf b := by
  unfold viewSizeOf
  split
  · decide
  · omega

/-- A valid header gives settings in range (R138 check 6, R139). -/
theorem headerDefaults_sound {h : List Byte} (hok : checkHeader h = .ok) : (headerDefaults h).sound := by
  intro p
  have hports : allPorts.all (headerPortOk h) = true := by
    unfold checkHeader at hok
    (repeat' split at hok) <;> simp_all
  have hp := List.all_eq_true.mp hports p (mem_allPorts p)
  simp only [headerPortOk, Bool.and_eq_true, decide_eq_true_eq] at hp
  obtain ⟨⟨⟨hview, hlevel⟩, -⟩, -⟩ := hp
  have hsettings : ((headerDefaults h).ports.get p).settings = (headerPort h p).settings := by simp [headerDefaults]
  rw [hsettings]
  exact ⟨one_le_viewSizeOf _, hview, hlevel⟩

theorem State.acceptHeader_moves {h : List Byte} (hok : checkHeader h = .ok) : s.LoaderMoves (s.acceptHeader h) := by
  refine State.SameDefaults.beginRecord ?_ 0
  refine ⟨rfl, rfl, rfl, rfl, fun d hd => .inr ?_⟩
  cases hd
  exact headerDefaults_sound hok

theorem State.takeRecord_moves (s : State) (line : List Byte) : s.LoaderMoves (s.takeRecord line) := by
  unfold State.takeRecord
  split
  · exact (State.SameDefaults.refl s).skipRecord _
  · exact .reads (.refl s) _ _

theorem State.takeContent_moves (s : State) (d : DirRecord) (chosen i : Nat) (line : List Byte) :
    s.LoaderMoves (s.takeContent d chosen i line) := by
  have hwritten : s.SameDefaults (s.putStore (s.store.writeLine (chosen + i) line)) :=
    (State.SameDefaults.refl s).next rfl rfl rfl rfl rfl
  unfold State.takeContent
  dsimp only
  split
  · exact .reads hwritten _ _
  split
  · exact hwritten.placeRecord d chosen
  · exact hwritten.skipRecord _

theorem State.loaderData_moves (s : State) (line : List Byte) : s.LoaderMoves (s.loaderData line) := by
  unfold State.loaderData
  split
  · exact .drops
  · split
    · exact State.acceptHeader_moves ‹_›
    · exact s.failHeader_moves _
  · exact s.takeRecord_moves line
  · exact s.takeContent_moves _ _ _ line

theorem State.loaderFault_moves (s : State) : s.LoaderMoves s.loaderFault := by
  unfold State.loaderFault
  split
  · exact .drops
  · exact s.failHeader_moves _
  · exact (State.SameDefaults.refl s).skipRecord _
  · exact (State.SameDefaults.refl s).skipRecord _

end

end Sys2Proof.Machine

namespace Sys2Proof.Machine

/-! ## A sound stream unit (R40 to R44) -/

section
variable {u : StreamUnit} {binding : Option Nat} {n : Nat}

/-- A closed stream unit has no lines and no binding (R41, R42). -/
theorem StreamUnit.sound.closed (h : u.sound binding) (hclosed : u.isOpen = false) :
    u.counter = 0 ∧ u.slots = ⟨.empty, .empty⟩ ∧ binding = none := by
  obtain ⟨-, h⟩ := h
  unfold StreamUnit.isOpen at hclosed
  split at hclosed <;> simp_all

theorem StreamUnit.sound_of_closed (hsettings : u.settings.sound) (hclosed : u.isOpen = false) (hcounter : u.counter = 0)
    (hslots : u.slots = ⟨.empty, .empty⟩) (hbinding : binding = none) : u.sound binding := by
  refine ⟨hsettings, ?_⟩
  unfold StreamUnit.isOpen at hclosed
  split at hclosed <;> simp_all

theorem StreamUnit.sound_iff_streaming (hstate : u.state = .streaming) : u.sound binding ↔ u.settings.sound ∧
    u.counter < u.settings.viewLines ∧ binding ≠ none ∧ u.deliverySlot.carries u.counter
      ∧ u.aheadSlot.carries (u.counter + 1)
      ∧ (u.aheadSlot ≠ .empty → u.settings.prefetch = true ∧ u.counter + 1 < u.settings.viewLines) := by
  simp only [StreamUnit.sound, hstate]

/-- The two slots by their roles are the two slots (R49). -/
theorem StreamUnit.slots_eq_empty (hdelivery : u.deliverySlot = .empty) (hahead : u.aheadSlot = .empty) :
    u.slots = ⟨.empty, .empty⟩ := by
  have hall : ∀ k, u.slots.get k = .empty := fun k => by
    rcases u.role_cases k with rfl | rfl
    · exact hdelivery
    · exact hahead
  exact (PerSlot.mk.injEq ..).mpr ⟨hall .a, hall .b⟩

theorem StreamUnit.sound_of_locked (hsettings : u.settings.sound) (hstate : u.state = .locked)
    (hcounter : u.counter = u.settings.viewLines) (hdelivery : u.deliverySlot = .empty) (hahead : u.aheadSlot = .empty)
    (hbinding : binding ≠ none) : u.sound binding := by
  have hslots := StreamUnit.slots_eq_empty hdelivery hahead
  refine ⟨hsettings, ?_⟩
  rw [hstate]
  exact ⟨hcounter, hslots, hbinding⟩

/-- A slot outside STREAMING is EMPTY (R41, R42). -/
theorem StreamUnit.sound.empty_of_not_streaming (h : u.sound binding) (hstate : u.state ≠ .streaming) :
    u.slots = ⟨.empty, .empty⟩ := by
  obtain ⟨-, h⟩ := h
  cases hs : u.state <;> simp_all

/-- A slot that takes another content for its line, or becomes EMPTY, leaves the stream sound (R42, R47). -/
theorem StreamUnit.sound.putSlot (h : u.sound binding) {k : SlotId} {x : LineSlot}
    (hempty : u.slots.get k = .empty → x = .empty) (hcarries : ∀ n, (u.slots.get k).carries n → x.carries n) :
    (u.putSlot k x).sound binding := by
  by_cases hstate : u.state = .streaming
  · obtain ⟨hsettings, hview, hbound, hdelivery, hahead, hprefetch⟩ := (StreamUnit.sound_iff_streaming hstate).mp h
    refine (StreamUnit.sound_iff_streaming (u := u.putSlot k x) hstate).mpr ⟨hsettings, hview, hbound, ?_, ?_, ?_⟩
    all_goals rcases u.role_cases k with rfl | rfl
    · simpa [StreamUnit.deliverySlot] using hcarries _ hdelivery
    · simpa [StreamUnit.deliverySlot] using hdelivery
    · simpa [StreamUnit.aheadSlot] using hahead
    · simpa [StreamUnit.aheadSlot] using hcarries _ hahead
    · simpa [StreamUnit.aheadSlot] using hprefetch
    · intro hne
      refine hprefetch fun hslot => hne ?_
      simpa [StreamUnit.aheadSlot] using hempty hslot
  · have hslots := h.empty_of_not_streaming hstate
    have hslot : u.slots.get k = .empty := by rw [hslots]; cases k <;> rfl
    have hsame : u.putSlot k x = u := by
      unfold StreamUnit.putSlot
      rw [hempty hslot, ← hslot]
      cases k <;> rfl
    rw [hsame]
    exact h

/-- The delivery slot of an open stream may take any content for the counter's line (R42). -/
theorem StreamUnit.sound.putDelivery (h : u.sound binding) (hstate : u.state = .streaming) {x : LineSlot}
    (hx : x.carries u.counter) : (u.putSlot u.delivery x).sound binding := by
  obtain ⟨hsettings, hview, hbound, -, hahead, hprefetch⟩ := (StreamUnit.sound_iff_streaming hstate).mp h
  refine (StreamUnit.sound_iff_streaming (u := u.putSlot u.delivery x) hstate).mpr
    ⟨hsettings, hview, hbound, ?_, ?_, ?_⟩
  · simpa [StreamUnit.deliverySlot] using hx
  · simpa [StreamUnit.aheadSlot] using hahead
  · simpa [StreamUnit.aheadSlot] using hprefetch

/-- A line that a lookup gave is the one looked up (R45). -/
theorem State.slotByLookup_carries (s : State) (p : Port) (g n : Nat) : (s.slotByLookup p g n).carries n := by
  unfold State.slotByLookup
  split <;> rfl

theorem State.aheadByLookup_carries (s : State) (p : Port) (g n : Nat) : (s.aheadByLookup p g n).carries n := by
  unfold State.aheadByLookup
  split
  · exact s.slotByLookup_carries p g n
  · trivial

/-- A refilled ahead slot holds a line only with prefetch on and inside the view (R49). -/
theorem State.aheadByLookup_ne_empty {s : State} {p : Port} {g : Nat} (h : s.aheadByLookup p g n ≠ .empty) :
    (s.streams.get p).settings.prefetch = true ∧ n < (s.streams.get p).settings.viewLines := by
  unfold State.aheadByLookup at h
  split at h
  · assumption
  · exact absurd rfl h

/-- An EMPTY slot takes no result (R47). -/
theorem LineSlot.receive_empty {x : LineSlot} {result : Option (List Byte)} (h : x = .empty) :
    x.receive result = .empty := by
  rw [h]
  rfl

/-- A WAITING slot that takes a result keeps its line (R47). -/
theorem LineSlot.receive_carries {x : LineSlot} (result : Option (List Byte)) (h : x.carries n) :
    (x.receive result).carries n := by
  cases x <;> cases result <;> exact h

/-- An accepted SEEK opens a sound stream (R50). -/
theorem State.openedUnit_sound {s : State} {p : Port} (hsettings : (s.streams.get p).settings.sound)
    (hview : n < (s.streams.get p).settings.viewLines) : (s.openedUnit p n).sound (some s.gen.current) := by
  have hdelivery : (s.openedUnit p n).deliverySlot = s.slotByLookup p s.gen.current n := by
    simp [StreamUnit.deliverySlot, State.openedUnit, StreamUnit.ahead]
  have hahead : (s.openedUnit p n).aheadSlot = s.aheadByLookup p s.gen.current (n + 1) := by
    simp [StreamUnit.aheadSlot, State.openedUnit, StreamUnit.ahead]
  refine (StreamUnit.sound_iff_streaming rfl).mpr ⟨hsettings, hview, by simp, ?_, ?_, fun hne => ?_⟩
  · rw [hdelivery]; exact s.slotByLookup_carries p _ _
  · rw [hahead]; exact s.aheadByLookup_carries p _ _
  · rw [hahead] at hne
    exact State.aheadByLookup_ne_empty hne

/-- A delivery keeps the stream sound: at the end of the view no line was ahead, and a line ahead is the one after the delivered
(R49, R53). -/
theorem State.Advances.sound {s : State} {p : Port} {v : PerSlot (Option Request)} (h : s.Advances p u v)
    (hstate : (s.streams.get p).state = .streaming) (hs : (s.streams.get p).sound binding) : u.sound binding := by
  obtain ⟨hsettings, hview, hbound, -, hahead, hprefetch⟩ := (StreamUnit.sound_iff_streaming hstate).mp hs
  rw [← h.settings] at hsettings
  by_cases hend : (s.streams.get p).counter + 1 = (s.streams.get p).settings.viewLines
  · obtain ⟨hlocked, hdelivered, hkept⟩ := h.atEnd hend
    refine StreamUnit.sound_of_locked hsettings hlocked (by rw [h.counter, h.settings, hend]) hdelivered ?_ hbound
    rw [hkept]
    by_contra hne
    have := (hprefetch hne).2
    omega
  · obtain ⟨hsame, hdelivery, hrefilled⟩ := h.onward hend
    refine (StreamUnit.sound_iff_streaming (hsame.trans hstate)).mpr
      ⟨hsettings, by rw [h.counter, h.settings]; omega, hbound, ?_, ?_, fun hne => ?_⟩ <;> rw [h.counter]
    · rw [hdelivery]
      split
      · exact s.slotByLookup_carries p _ _
      · exact hahead
    · rw [hrefilled]
      exact s.aheadByLookup_carries p _ _
    · rw [hrefilled] at hne
      rw [h.settings]
      exact State.aheadByLookup_ne_empty hne

end

/-! ## Every command keeps the streams sound -/

section
variable {c : Instr} {s s' t : State} {p : Port} {r : Response}

/-- The streams, the bindings and the records are all that is at stake. -/
theorem State.streamsSound.of_same (h : s.streamsSound) (hstreams : t.streams = s.streams)
    (hbindings : t.gen.bindings = s.gen.bindings) (hloader : t.loader = s.loader) : t.streamsSound :=
  ⟨hstreams ▸ hbindings ▸ h.streams, hloader ▸ h.defaults, hloader ▸ h.pending⟩

/-- One port's stream unit and binding change. -/
theorem State.streamsSound.of_port (h : s.streamsSound) {u : StreamUnit} {b : Option Nat}
    (hstreams : t.streams = s.streams.set p u) (hbindings : t.gen.bindings = s.gen.bindings.set p b)
    (hloader : t.loader = s.loader) (hu : u.sound b) : t.streamsSound := by
  refine ⟨fun q => ?_, hloader ▸ h.defaults, hloader ▸ h.pending⟩
  rw [hstreams, hbindings, PerPort.get_set, PerPort.get_set]
  split
  · exact hu
  · exact h.streams q

/-- One port's stream unit changes. -/
theorem State.streamsSound.of_stream (h : s.streamsSound) {u : StreamUnit} (hstreams : t.streams = s.streams.set p u)
    (hgen : t.gen = s.gen) (hloader : t.loader = s.loader) (hu : u.sound (s.gen.bindings.get p)) : t.streamsSound :=
  h.of_port hstreams (b := s.gen.bindings.get p) (by rw [hgen, PerPort.set_get]) hloader hu

theorem State.streamsSound.grant (h : s.streamsSound) : s.grant.streamsSound := h.of_same (by simp) (by simp) (by simp)

theorem seekOwner_streamsSound {line : Nat} (hs : s.streamsSound) (h : seekOwner p line s = .ok (s', r)) :
    s'.streamsSound := by
  rcases seekOwner_cases h with rfl | ⟨hview, rfl⟩
  · exact hs
  · exact State.streamsSound.grant (hs.of_port (p := p) (by simp [State.openStream_eq]) (by simp [State.openStream_eq])
      (by simp) (State.openedUnit_sound (hs.streams p).1 hview))

theorem State.streamsSound.advance (hs : s.streamsSound) (hstate : (s.streams.get p).state = .streaming) :
    (s.advance p).streamsSound := by
  obtain ⟨u, v, h⟩ := s.exists_advances p
  exact hs.of_stream (u := u) (by simp [h.eq]) (by simp) (by simp) (h.sound hstate (hs.streams p))

/-- A line taken into the EMPTY delivery slot is the counter's (R45, R56). -/
theorem State.streamsSound.fillDelivery (hs : s.streamsSound) (hstate : (s.streams.get p).state = .streaming) :
    (s.fillSlot p (s.streams.get p).delivery (s.streams.get p).counter).streamsSound := by
  refine hs.of_stream (p := p) (by rw [State.fillSlot_eq]; rfl) (by simp) (by simp) ?_
  exact (hs.streams p).putDelivery hstate (s.slotByLookup_carries p _ _)

theorem nextOwner_streamsSound (hs : s.streamsSound) (h : nextOwner p s = .ok (s', r)) : s'.streamsSound := by
  rcases nextOwner_cases h with rfl | ⟨hstate, ⟨line, -, rfl⟩ | ⟨b, hb, hnext⟩⟩
  · exact hs
  · exact hs.of_stream (s.putSlot_streams p _ _) (by simp) (by simp)
      ((hs.streams p).putSlot (fun _ => rfl) fun _ _ => trivial)
  · have hfilled : b.streamsSound ∧ (b.streams.get p).state = .streaming := by
      rcases hb with rfl | ⟨-, rfl⟩
      · exact ⟨hs, hstate⟩
      · exact ⟨hs.fillDelivery hstate, by simpa [State.fillSlot_streams] using hstate⟩
    obtain ⟨hbs, hbstate⟩ := hfilled
    rcases hnext with rfl | ⟨rfl, -⟩
    · exact hbs.grant
    · exact (hbs.advance hbstate).grant

/-- PORT_SET applies settings in range to a closed stream (R44, R60). -/
theorem portSetOwner_streamsSound {level prefetch mask base size : Byte} (hs : s.streamsSound)
    (h : portSetOwner p level prefetch mask base size s = .ok (s', r)) : s'.streamsSound := by
  unfold portSetOwner at h
  (repeat' split at h) <;> cases h
  · exact hs
  · exact hs
  · rename_i hclosed hgood
    rw [Bool.not_eq_true] at hclosed
    rw [portSetBadArg_iff] at hgood
    obtain ⟨hcounter, hslots, hbinding⟩ := (hs.streams p).closed hclosed
    refine hs.of_stream (u := { s.streams.get p with settings := portSetSettings level prefetch base size }) rfl rfl rfl
      (StreamUnit.sound_of_closed ⟨one_le_viewSizeOf _, ?_, ?_⟩ hclosed hcounter hslots hbinding) <;>
      simp only [portSetSettings, Config.viewUnits] <;> omega

theorem reloadOwner_streamsSound (hs : s.streamsSound) (h : reloadOwner p s = .ok (s', r)) : s'.streamsSound := by
  unfold reloadOwner at h
  split at h <;> cases h
  · refine State.streamsSound.grant ⟨fun q => ?_, hs.defaults, by rintro d ⟨⟩⟩
    have hstream : s.reload.streams.get q = (s.streams.get q).reload := by simp [State.reload]
    have hbinding : s.reload.gen.bindings.get q = none := by cases q <;> rfl
    rw [hstream, hbinding]
    exact StreamUnit.sound_of_closed (hs.streams q).1 rfl rfl rfl rfl
  · exact hs

/-- PORT_RESET closes the stream IDLE with the settings of the port defaults record (R62, R64, R182). -/
theorem State.portReset_streams (s : State) (p : Port) : (s.portReset p).streams = s.streams.set p
    ⟨.idle, 0, ⟨.empty, .empty⟩, (s.streams.get p).delivery, (s.loader.defaults.ports.get p).settings⟩ := by
  simp [State.portReset, State.putSettings, State.resetStreamPart, State.closeIdle_streams]

theorem State.portReset_bindings (s : State) (p : Port) :
    (s.portReset p).gen.bindings = s.gen.bindings.set p none := by
  simp [State.portReset, State.resetStreamPart, State.rebind_gen]

theorem State.streamsSound.portReset (hs : s.streamsSound) (p : Port) : (s.portReset p).streamsSound :=
  hs.of_port (s.portReset_streams p) (s.portReset_bindings p) (by simp)
    (StreamUnit.sound_of_closed (hs.defaults p) rfl rfl rfl rfl)

theorem State.deviceReset_streamsSound (s : State) : s.deviceReset.streamsSound where
  streams := fun p => by cases p <;> exact ⟨Settings.reset_sound, rfl, rfl, rfl⟩
  defaults := Defaults.builtIn_sound
  pending := by rintro d ⟨⟩

theorem execDrainExpiry_streamsSound (hs : s.streamsSound) (h : execDrainExpiry s = .next t) : t.streamsSound := by
  unfold execDrainExpiry at h
  split at h <;> cases h
  · exact hs
  rename_i g hdue
  have hexpired : (allPorts.foldl (fun s p => s.expirePort g p) s).streamsSound := by
    refine ⟨fun q => ?_, by simpa using hs.defaults, by simpa using hs.pending⟩
    rw [State.expireAll_streams, State.expireAll_bindings]
    split
    · exact StreamUnit.sound_of_closed (hs.streams q).1 rfl rfl rfl rfl
    · exact hs.streams q
  exact hexpired.of_same (by simp) rfl (by simp)

/-- The loader's moves during a load find every stream closed, where new settings are no concern (R148, R149). -/
theorem State.LoaderMoves.streamsSound (h : s.LoaderMoves t) (hs : s.streamsSound)
    (hidle : ∀ p, (s.streams.get p).state = .idle) : t.streamsSound := by
  have hsame : ∀ u, s.SameDefaults u → u.streamsSound := fun u hu =>
    ⟨hu.streams ▸ hu.bindings ▸ hs.streams, hu.defaults ▸ hs.defaults,
      fun d hd => (hu.pending d hd).elim (hs.pending d) id⟩
  cases h with
  | drops => exact hs
  | reads hu step line => exact ⟨(hsame _ hu).streams, (hsame _ hu).defaults, (hsame _ hu).pending⟩
  | @ends u hu =>
    have hd : (u.loader.pendingRecord.getD u.loader.defaults).sound := by
      cases hp : u.loader.pendingRecord with
      | none => exact (hsame u hu).defaults
      | some d => exact (hsame u hu).pending d hp
    refine ⟨fun p => ?_, by rw [State.endLoad_loader]; exact hd, by rw [State.endLoad_loader]; rintro d ⟨⟩⟩
    have hclosed : (u.streams.get p).isOpen = false := by rw [hu.streams, StreamUnit.isOpen, hidle p]
    obtain ⟨hcounter, hslots, hbinding⟩ := ((hsame u hu).streams p).closed hclosed
    rw [State.endLoad_streams]
    exact StreamUnit.sound_of_closed (hd p) hclosed hcounter hslots (by simpa using hbinding)

theorem State.streamsSound.endRead (hs : s.streamsSound) (hl : s.loadSound) {r : Read} (hr : s.xmc.inFlight = some r)
    (result : Option (List Byte)) : (s.endRead r result).streamsSound := by
  have hrun := hl.running hr
  rw [State.endRead_cases]
  generalize hx : (if result.isNone then _ else _ : Xmc) = x
  have hidle : x.inFlight = none := by rw [← hx]; split <;> rfl
  have hrequest : x.loaderRequest = s.xmc.loaderRequest := by rw [← hx]; split <;> rfl
  refine State.streamsSound.grant ?_
  by_cases horphan : r.orphan = true
  · rw [if_pos horphan]
    exact hs.of_same rfl rfl rfl
  rw [if_neg horphan]
  rw [Bool.not_eq_true] at horphan
  have hput : (s.putXmc x).streamsSound := hs.of_same rfl rfl rfl
  have hquiet : r.requester = .loader → ∀ p, ((s.putXmc x).streams.get p).state = .idle := fun hloader =>
    (hl.betweenReads hrun ⟨r, hr, hloader, horphan, rfl⟩ hidle hrequest).quiet.idle
  split
  · exact hput.of_stream (State.putSlot_streams _ _ _ _) rfl rfl
      ((hput.streams _).putSlot LineSlot.receive_empty fun _ => LineSlot.receive_carries _)
  · exact (State.loaderData_moves _ _).streamsSound hput (hquiet ‹_›)
  · exact (State.loaderFault_moves _).streamsSound hput (hquiet ‹_›)

theorem exec_streamsSound (hs : s.streamsSound) (hl : s.loadSound) (h : exec c s = .next t) : t.streamsSound := by
  have request : ∀ {p k payload} {owner : State → Answer}, (∀ s' r, owner s = .ok (s', r) → s'.streamsSound) →
      s.pointOfAction p k payload owner = .next t → t.streamsSound := fun ho =>
    State.pointOfAction_keeps hs (fun u r hu => hu.of_same (by simp) (by simp) (by simp)) (fun _ _ => ho)
  cases c with
  | seek p line => exact request (fun _ _ => seekOwner_streamsSound hs) h
  | next p => exact request (fun _ _ => nextOwner_streamsSound hs) h
  | portSet p level prefetch mask base size => exact request (fun _ _ => portSetOwner_streamsSound hs) h
  | reload p => exact request (fun _ _ => reloadOwner_streamsSound hs) h
  | portReset p =>
    refine request (owner := portResetOwner p) (fun s' r ho => ?_) h
    cases ho
    exact hs.portReset p
  | deviceReset => cases h; exact s.deviceReset_streamsSound
  | resetEnd straps =>
    replace h : execResetEnd straps s = .next t := h
    unfold execResetEnd at h
    split at h <;> cases h
    · exact State.streamsSound.grant ⟨hs.streams, hs.defaults, hs.pending⟩
    · exact hs
  | drainExpiry => exact execDrainExpiry_streamsSound hs h
  | accessCompletes xd =>
    replace h : execAccessCompletes xd s = .next t := h
    unfold execAccessCompletes at h
    dsimp only at h
    (repeat' split at h) <;> cases h
    · exact hs
    · exact hs.of_same rfl rfl rfl
    · exact hs.endRead hl ‹_› _
  | readyLimitExceeded =>
    replace h : execReadyLimitExceeded s = .next t := h
    unfold execReadyLimitExceeded at h
    split at h <;> cases h
    · exact hs
    · exact hs.endRead hl ‹_› _
  | _ =>
    have hsame := exec_of_leavesFetching rfl h
    exact hs.of_same hsame.streams hsame.bindings hsame.loader

end

/-- The queue's rest is no concern of the streams' laws. -/
theorem State.streamsSound.putPending {s : State} (h : s.streamsSound) (rest : List Instr) :
    (s.putPending rest).streamsSound := h.of_same rfl rfl rfl

/-- Settles O55, command by command: SEEK opens and NEXT advances a sound stream, the closings leave nothing open, and settings change
on closed streams only. -/
theorem stepKeepsStreams : Obligations.StepKeepsStreams := by
  intro s t hload hstreams hstep
  rcases step_cases hstep with ⟨-, rfl⟩ | ⟨c, rest, -, hexec⟩
  · exact hstreams
  · exact exec_streamsSound (hstreams.putPending rest) (hload.putPending rest) hexec

end Sys2Proof.Machine

namespace Sys2Proof.Machine

/-! ## One slot's outstanding read (R42, R65) -/

section
variable {x y : Xmc} {p q : Port} {k l : SlotId} {wanted : Option Request}

/-- The outstanding reads of slot `k` of port `p` where it waits for what `wanted` asks: none for a slot that waits for nothing, else
one, a request of that line and level or the read in flight (R42, R65). -/
def Xmc.awaits (x : Xmc) (p : Port) (k : SlotId) : Option Request → Prop
  | none => x.slotRequest p k = none ∧ ∀ n, ¬ x.servesSlot p k n
  | some r =>
    ((∃ passes, x.slotRequest p k = some ⟨r.line, r.level, passes⟩) ∧ ∀ n, ¬ x.servesSlot p k n)
      ∨ (x.slotRequest p k = none ∧ x.servesSlot p k r.line)

/-- An idle controller has an empty set (R67). -/
def Xmc.granted (x : Xmc) : Prop := x.inFlight = none → ∀ q, x.requestOf q = none

/-- What a slot waits for is read off its place of the set and the read in flight. -/
theorem Xmc.awaits.of_same (h : x.awaits p k wanted) (hrequest : y.slotRequest p k = x.slotRequest p k)
    (hserves : ∀ n, y.servesSlot p k n ↔ x.servesSlot p k n) : y.awaits p k wanted := by
  cases wanted <;> simpa only [Xmc.awaits, hrequest, hserves] using h

theorem Xmc.awaits.of_inFlight (h : x.awaits p k wanted) (hrequest : y.slotRequest p k = x.slotRequest p k)
    (hflight : y.inFlight = x.inFlight) : y.awaits p k wanted :=
  h.of_same hrequest fun n => by simp only [Xmc.servesSlot, hflight]

/-- A new request is one outstanding read (R66). -/
theorem Xmc.awaits.placed (h : x.awaits p k none) (hrequest : y.slotRequest p k = wanted)
    (hflight : y.inFlight = x.inFlight) : y.awaits p k wanted := by
  have hserves : ∀ n, ¬ y.servesSlot p k n := fun n => by simpa only [Xmc.servesSlot, hflight] using h.2 n
  cases wanted with
  | none => exact ⟨hrequest, hserves⟩
  | some r => exact .inl ⟨⟨r.passes, hrequest⟩, hserves⟩

/-- The end of a read that does not serve the slot is no concern of what the slot waits for (R73, R76). -/
theorem Xmc.awaits.of_read_end (h : x.awaits p k wanted) (hother : ∀ n, ¬ x.servesSlot p k n)
    (hrequest : y.slotRequest p k = x.slotRequest p k) (hidle : y.inFlight = none) : y.awaits p k wanted :=
  h.of_same hrequest fun n => iff_of_false (by simp [Xmc.servesSlot, hidle]) (hother n)

/-- A slot whose read is in flight has no request in the set (R42). -/
theorem Xmc.awaits.slotRequest_of_serves (h : x.awaits p k wanted) {n : Nat} (hserves : x.servesSlot p k n) :
    x.slotRequest p k = none := by
  cases wanted with
  | none => exact h.1
  | some r => exact h.elim (fun h => absurd hserves (h.2 n)) And.left

/-- A grant takes the slot's request, or ages it and starts another requester's read (R67, R69). -/
theorem Xmc.awaits.grant (h : x.awaits p k wanted) (roles : PerPort SlotId) : (x.grant roles).awaits p k wanted := by
  rcases x.grant_cases roles with ⟨hg, -⟩ | ⟨hidle, q, r, -, hr, hg⟩
  · rwa [hg]
  have hnone : ∀ n, ¬ x.servesSlot p k n := by simp [Xmc.servesSlot, hidle]
  have hrequest : (x.grant roles).slotRequest p k
      = if q = .slot p k then none else (x.slotRequest p k).map Request.age := by
    rw [hg]
    have := ((x.remove q).requestOf_ageAll (.slot p k)).trans (congrArg _ (x.requestOf_remove q (.slot p k)))
    refine this.trans ?_
    by_cases hq : q = .slot p k <;> simp [hq, eq_comm]
  have hserves : ∀ n, (x.grant roles).servesSlot p k n ↔ q = .slot p k ∧ r.line = n := by
    intro n
    simp [Xmc.servesSlot, hg]
  by_cases hq : q = .slot p k
  · subst hq
    cases wanted with
    | none => cases h.1.symm.trans hr
    | some w =>
      obtain ⟨⟨passes, hp⟩, -⟩ | ⟨-, hs⟩ := h
      · cases hp.symm.trans hr
        exact .inr ⟨by simpa using hrequest, (hserves _).mpr ⟨rfl, rfl⟩⟩
      · exact absurd hs (hnone _)
  · rw [if_neg hq] at hrequest
    have hserves' : ∀ n, ¬ (x.grant roles).servesSlot p k n := fun n hn => hq ((hserves n).mp hn).1
    cases wanted with
    | none => exact ⟨by rw [hrequest, h.1]; rfl, hserves'⟩
    | some w =>
      obtain ⟨⟨passes, hp⟩, -⟩ | ⟨-, hs⟩ := h
      · exact .inl ⟨⟨_, by rw [hrequest, hp]; rfl⟩, hserves'⟩
      · exact absurd hs (hnone _)

/-- A controller that is idle after a grant had, and has, an empty set (R67). -/
theorem Xmc.granted_grant (x : Xmc) (roles : PerPort SlotId) : (x.grant roles).granted := by
  intro hidle q
  rcases x.grant_cases roles with ⟨hg, -⟩ | ⟨-, _, _, -, -, hg⟩
  · rw [hg]
    exact Xmc.requestOf_of_grant_idle hidle q
  · rw [hg] at hidle
    cases hidle

/-- A release withdraws requests and leaves a read in flight, orphaned or not (R75, R76). -/
theorem Xmc.granted.release (h : x.granted) (p : Port) (k : SlotId) : (x.release p k).granted := by
  intro hidle q
  rw [Xmc.inFlight_release, Option.map_eq_none_iff] at hidle
  have hset : (x.release p k).requestOf q = (x.putSlotRequest p k none).requestOf q := by cases q <;> rfl
  rw [hset, Xmc.requestOf_putSlotRequest, h hidle q, ite_self]

end

/-! ## Every slot's outstanding read -/

section
variable {s t : State} {p : Port} {k : SlotId}

/-- The request that slot `k` of port `p` waits for (R42). -/
def State.wanted (s : State) (p : Port) (k : SlotId) : Option Request :=
  (s.streams.get p).settings.requestFor ((s.streams.get p).slots.get k)

/-- Every slot has the outstanding reads that its content asks for (R42, R46, R65). -/
def State.readsSound (s : State) : Prop := ∀ p k, s.xmc.awaits p k (s.wanted p k)

theorem State.outstandingSound_iff : s.outstandingSound ↔ s.xmc.granted ∧ s.readsSound := by
  constructor
  · rintro ⟨hgranted, hslots⟩
    refine ⟨hgranted, fun p k => ?_⟩
    have hslot := hslots p k
    unfold State.wanted
    cases hc : (s.streams.get p).slots.get k <;> rw [hc] at hslot <;> exact hslot
  · rintro ⟨hgranted, hreads⟩
    refine ⟨hgranted, fun p k => ?_⟩
    have hslot := hreads p k
    unfold State.wanted at hslot
    cases hc : (s.streams.get p).slots.get k <;> rw [hc] at hslot <;> exact hslot

theorem State.outstandingSound.reads (h : s.outstandingSound) : s.readsSound := (State.outstandingSound_iff.mp h).2

/-- The controller and what each slot waits for are all that is at stake. -/
theorem State.readsSound.of_same (h : s.readsSound) (hxmc : t.xmc = s.xmc)
    (hwanted : ∀ p k, t.wanted p k = s.wanted p k) : t.readsSound := fun p k => by
  rw [hxmc, hwanted]
  exact h p k

theorem State.outstandingSound.of_same (h : s.outstandingSound) (hxmc : t.xmc = s.xmc)
    (hstreams : t.streams = s.streams) : t.outstandingSound := by
  obtain ⟨hgranted, hreads⟩ := State.outstandingSound_iff.mp h
  exact State.outstandingSound_iff.mpr ⟨hxmc ▸ hgranted, hreads.of_same hxmc fun p k => by simp [State.wanted, hstreams]⟩

theorem State.readsSound.grant (h : s.readsSound) : s.grant.outstandingSound :=
  State.outstandingSound_iff.mpr ⟨Xmc.granted_grant s.xmc s.roles, fun p k => (h p k).grant s.roles⟩

/-- A slot that waits for nothing has an empty place in the set (R46). -/
theorem State.readsSound.slotRequest_eq_none (h : s.readsSound) (hnone : s.wanted p k = none) :
    s.xmc.slotRequest p k = none := by
  have hslot := h p k
  rw [hnone] at hslot
  exact hslot.1

/-- An EMPTY slot waits for nothing (R42). -/
theorem State.wanted_of_empty (h : (s.streams.get p).slots.get k = .empty) : s.wanted p k = none := by
  unfold State.wanted
  rw [h]
  rfl

/-- What the slots wait for after one slot was replaced. -/
theorem State.wanted_putSlot (x : LineSlot) (q : Port) (l : SlotId) : (s.putSlot p k x).wanted q l =
    if q = p ∧ l = k then (s.streams.get p).settings.requestFor x else s.wanted q l := by
  unfold State.wanted
  rw [State.putSlot_streams]
  by_cases hq : q = p
  · subst hq
    by_cases hl : l = k
    · subst hl; simp
    · simp [hl]
  · simp [hq]

/-- One port's slots change: each keeps what it waits for, with its place of the set, or waited for nothing and has its new request
in its place (R65, R66). -/
theorem State.readsSound.withPort (h : s.readsSound) {u : StreamUnit} {v : PerSlot (Option Request)}
    (hslots : ∀ k, u.settings.requestFor (u.slots.get k) = s.wanted p k ∧ v.get k = s.xmc.slotRequest p k ∨
      s.wanted p k = none ∧ v.get k = u.settings.requestFor (u.slots.get k)) : (s.withPort p u v).readsSound := by
  intro q k
  by_cases hq : q = p
  · subst hq
    have hwanted : (s.withPort q u v).wanted q k = u.settings.requestFor (u.slots.get k) := by simp [State.wanted]
    have hplace : (s.withPort q u v).xmc.slotRequest q k = v.get k := by simp [Xmc.slotRequest]
    rw [hwanted]
    rcases hslots k with ⟨hsame, hkept⟩ | ⟨hnone, hnew⟩
    · rw [hsame]
      exact (h q k).of_inFlight (hplace.trans hkept) rfl
    · have hfree := h q k
      rw [hnone] at hfree
      exact hfree.placed (hplace.trans hnew) rfl
  · have hwanted : (s.withPort p u v).wanted q k = s.wanted q k := by simp [State.wanted, hq]
    rw [hwanted]
    exact (h q k).of_inFlight (by simp [Xmc.slotRequest, hq]) rfl

/-- A slot that waits for nothing is filled by lookup (R45, R66). -/
theorem State.readsSound.fillSlot (h : s.readsSound) (hnone : s.wanted p k = none) (n : Nat) :
    (s.fillSlot p k n).readsSound := by
  have hplace := h.slotRequest_eq_none hnone
  rw [State.fillSlot_eq]
  refine h.withPort fun l => ?_
  by_cases hl : l = k
  · subst hl
    refine .inr ⟨hnone, ?_⟩
    rw [Settings.placing_get, if_pos rfl, show (s.xmc.slotRequests.get p).get l = none from hplace, Option.or_none]
    simp
  · refine .inl ⟨by simp [hl, State.wanted], ?_⟩
    rw [Settings.placing_get, if_neg hl]
    rfl

/-- A delivery: a line ahead keeps its read, and the slots filled waited for nothing (R49, R66, R77). -/
theorem State.readsSound.advance (h : s.readsSound) {line : Nat} {source : Source} {data : List Byte}
    (hready : (s.streams.get p).deliverySlot = .ready line source data) : (s.advance p).readsSound := by
  obtain ⟨u, v, hadv⟩ := s.exists_advances p
  rw [hadv.eq]
  refine h.withPort fun k => ?_
  rw [hadv.requests k]
  by_cases hkept : k = (s.streams.get p).ahead ∧ (s.streams.get p).aheadSlot ≠ .empty
  · refine .inl ⟨?_, if_pos hkept⟩
    rw [hadv.settings, hadv.kept k hkept.1 hkept.2]
    rfl
  · have hnone : s.wanted p k = none := by
      unfold State.wanted
      rcases (s.streams.get p).role_cases k with rfl | rfl
      · rw [show (s.streams.get p).slots.get (s.streams.get p).delivery = _ from hready]
        rfl
      · have hempty : (s.streams.get p).aheadSlot = .empty := not_not.mp fun hne => hkept ⟨rfl, hne⟩
        rw [show (s.streams.get p).slots.get (s.streams.get p).ahead = _ from hempty]
        rfl
    exact .inr ⟨hnone, by rw [if_neg hkept, h.slotRequest_eq_none hnone, Option.or_none]⟩

/-- Both slots of a port are abandoned (R46, R75, R76). -/
theorem State.readsSound.abandonBoth (h : s.readsSound) {u : StreamUnit} (hxmc : t.xmc = (s.abandonBoth p).xmc)
    (hstreams : t.streams = s.streams.set p u) (hslots : u.slots = ⟨.empty, .empty⟩) : t.readsSound := by
  intro q k
  rw [hxmc]
  by_cases hq : q = p
  · subst hq
    have hempty : (t.streams.get q).slots.get k = .empty := by rw [hstreams, PerPort.get_set_same, hslots]; cases k <;> rfl
    rw [State.wanted_of_empty hempty]
    exact ⟨by simp [State.abandonBoth_slotRequest], by simp [State.abandonBoth_servesSlot]⟩
  · have hwanted : t.wanted q k = s.wanted q k := by simp [State.wanted, hstreams, hq]
    rw [hwanted]
    exact (h q k).of_same (by simp [State.abandonBoth_slotRequest, hq]) (by simp [State.abandonBoth_servesSlot, hq])

theorem State.outstandingSound.abandonBoth (h : s.outstandingSound) {u : StreamUnit}
    (hxmc : t.xmc = (s.abandonBoth p).xmc) (hstreams : t.streams = s.streams.set p u)
    (hslots : u.slots = ⟨.empty, .empty⟩) : t.outstandingSound := by
  obtain ⟨hgranted, hreads⟩ := State.outstandingSound_iff.mp h
  refine State.outstandingSound_iff.mpr ⟨?_, hreads.abandonBoth hxmc hstreams hslots⟩
  rw [hxmc]
  exact (hgranted.release p .a).release p .b

/-- The stream that a SEEK opens (R50, R66, R75, R76). -/
theorem State.readsSound.openStream (h : s.readsSound) (line : Nat) : (s.openStream p line).readsSound := by
  have hunseated : (s.unseated p).readsSound := h.abandonBoth (by simp) (s.unseated_streams p) rfl
  rw [State.openStream_eq]
  refine hunseated.withPort fun k => .inr ⟨State.wanted_of_empty ?_, ?_⟩
  · simp only [State.unseated_streams, PerPort.get_set_same]
    cases k <;> rfl
  · cases k <;> rfl

/-- Where every slot is EMPTY and stays so, the settings are no concern of the outstanding reads. -/
theorem State.readsSound.of_empty (h : s.readsSound) (hs : ∀ p k, (s.streams.get p).slots.get k = .empty)
    (ht : ∀ p k, (t.streams.get p).slots.get k = .empty) (hrequests : t.xmc.slotRequests = s.xmc.slotRequests)
    (hflight : t.xmc.inFlight = s.xmc.inFlight) : t.readsSound := fun p k => by
  have hfree := h p k
  rw [State.wanted_of_empty (hs p k)] at hfree
  rw [State.wanted_of_empty (ht p k)]
  exact hfree.of_inFlight (by simp [Xmc.slotRequest, hrequests]) hflight

end

/-! ## Every command keeps the outstanding reads -/

section
variable {c : Instr} {s s' t : State} {p : Port} {r : Response}

theorem seekOwner_outstandingSound {line : Nat} (ho : s.outstandingSound) (h : seekOwner p line s = .ok (s', r)) :
    s'.outstandingSound := by
  rcases seekOwner_cases h with rfl | ⟨-, rfl⟩
  · exact ho
  · exact (ho.reads.openStream line).grant

/-- A slot given up after its fault had no read outstanding, and has none (R55). -/
theorem State.outstandingSound.clearFaulted (ho : s.outstandingSound) {line : Nat}
    (hslot : (s.streams.get p).deliverySlot = .faulted line) :
    (s.putSlot p (s.streams.get p).delivery .empty).outstandingSound := by
  obtain ⟨hgranted, hreads⟩ := State.outstandingSound_iff.mp ho
  refine State.outstandingSound_iff.mpr ⟨hgranted, hreads.of_same rfl fun q l => ?_⟩
  rw [State.wanted_putSlot]
  split
  · rename_i hsame
    obtain ⟨rfl, rfl⟩ := hsame
    unfold State.wanted
    rw [show (s.streams.get q).slots.get (s.streams.get q).delivery = _ from hslot]
    rfl
  · rfl

theorem nextOwner_outstandingSound (ho : s.outstandingSound) (h : nextOwner p s = .ok (s', r)) :
    s'.outstandingSound := by
  rcases nextOwner_cases h with rfl | ⟨-, ⟨line, hslot, rfl⟩ | ⟨b, hb, hnext⟩⟩
  · exact ho
  · exact ho.clearFaulted hslot
  · have hfilled : b.readsSound := by
      rcases hb with rfl | ⟨hempty, rfl⟩
      · exact ho.reads
      · exact ho.reads.fillSlot (State.wanted_of_empty hempty) _
    rcases hnext with rfl | ⟨rfl, line, source, data, hready⟩
    · exact hfilled.grant
    · exact (hfilled.advance hready).grant

/-- The slots of a closed stream are EMPTY (R41, R42). -/
theorem State.streamsSound.empty_of_closed (hs : s.streamsSound) (hclosed : (s.streams.get p).isOpen = false)
    (k : SlotId) : (s.streams.get p).slots.get k = .empty := by
  obtain ⟨-, hslots, -⟩ := (hs.streams p).closed hclosed
  rw [hslots]
  cases k <;> rfl

theorem portSetOwner_outstandingSound {level prefetch mask base size : Byte} (hs : s.streamsSound)
    (ho : s.outstandingSound) (h : portSetOwner p level prefetch mask base size s = .ok (s', r)) :
    s'.outstandingSound := by
  unfold portSetOwner at h
  (repeat' split at h) <;> cases h
  · exact ho
  · exact ho
  · rename_i hclosed _
    rw [Bool.not_eq_true] at hclosed
    obtain ⟨hgranted, hreads⟩ := State.outstandingSound_iff.mp ho
    refine State.outstandingSound_iff.mpr ⟨hgranted, hreads.of_same rfl fun q k => ?_⟩
    by_cases hq : q = p
    · subst hq
      have hempty := hs.empty_of_closed hclosed k
      rw [State.wanted_of_empty hempty]
      exact State.wanted_of_empty (by simpa [State.putSettings] using hempty)
    · simp [State.wanted, State.putSettings, hq]

/-- An accepted RELOAD empties the slots and the set, and orphans the read in flight (R63, R83). -/
theorem reloadOwner_outstandingSound (ho : s.outstandingSound) (h : reloadOwner p s = .ok (s', r)) :
    s'.outstandingSound := by
  unfold reloadOwner at h
  split at h <;> cases h
  · refine State.readsSound.grant fun q k => ?_
    have hempty : (s.reload.streams.get q).slots.get k = .empty := by
      have hstream : s.reload.streams.get q = (s.streams.get q).reload := by simp [State.reload]
      rw [hstream]
      cases k <;> rfl
    rw [State.wanted_of_empty hempty]
    refine ⟨by cases q <;> cases k <;> rfl, ?_⟩
    rintro n ⟨f, hf, -, horphan, -⟩
    obtain ⟨f, -, rfl⟩ := Option.map_eq_some_iff.mp hf
    cases horphan
  · exact ho

theorem State.outstandingSound.portReset (ho : s.outstandingSound) (p : Port) : (s.portReset p).outstandingSound :=
  ho.abandonBoth (p := p) (by simp [State.portReset, State.resetStreamPart, State.closeIdle_xmc])
    (s.portReset_streams p) rfl

theorem State.deviceReset_outstandingSound (s : State) : s.deviceReset.outstandingSound := by
  have hempty : ∀ p k, (s.deviceReset.streams.get p).slots.get k = .empty := fun p k => by cases p <;> cases k <;> rfl
  refine State.outstandingSound_iff.mpr ⟨fun _ q => ?_, fun p k => ?_⟩
  · rcases q with ⟨p, k⟩ | _
    · exact State.reset_slotRequest p k
    · rfl
  · rw [State.wanted_of_empty (hempty p k)]
    exact ⟨State.reset_slotRequest p k, by rintro n ⟨f, ⟨⟩, -⟩⟩

theorem State.outstandingSound.expirePort (ho : s.outstandingSound) (g : Nat) (p : Port) :
    (s.expirePort g p).outstandingSound := by
  unfold State.expirePort
  dsimp only
  split
  · exact ho.abandonBoth (p := p) (by simp [State.closeStale_xmc]) (s.closeStale_streams p) rfl
  · exact ho

theorem State.outstandingSound.expirePorts (ho : s.outstandingSound) (g : Nat) (ports : List Port) :
    (ports.foldl (fun s p => s.expirePort g p) s).outstandingSound := by
  induction ports generalizing s with
  | nil => exact ho
  | cons p ports ih => exact ih (ho.expirePort g p)

theorem execDrainExpiry_outstandingSound (ho : s.outstandingSound) (h : execDrainExpiry s = .next t) :
    t.outstandingSound := by
  unfold execDrainExpiry at h
  split at h <;> cases h
  · exact ho
  rename_i g _
  exact (ho.expirePorts g allPorts).of_same (by simp) (by simp)

/-- The loader's moves leave the line slots, their requests and the read in flight. -/
theorem State.LoaderMoves.slots (h : s.LoaderMoves t) :
    (∀ p, (t.streams.get p).slots = (s.streams.get p).slots) ∧ t.xmc.slotRequests = s.xmc.slotRequests
      ∧ t.xmc.inFlight = s.xmc.inFlight := by
  cases h with
  | drops => exact ⟨fun _ => rfl, rfl, rfl⟩
  | @reads u hu step line => exact ⟨fun p => by rw [← hu.streams]; rfl, by rw [← hu.xmc]; rfl, by rw [← hu.xmc]; rfl⟩
  | @ends u hu => exact ⟨fun p => by rw [State.endLoad_streams, hu.streams], by simp [hu.xmc], by simp [hu.xmc]⟩

/-- A slot that has taken a result waits for nothing (R47). -/
theorem Settings.requestFor_receive (v : Settings) (x : LineSlot) (result : Option (List Byte)) :
    v.requestFor (x.receive result) = none := by
  cases x <;> cases result <;> rfl

/-- The end of a line read, whoever it served (R47, R73, R76). -/
theorem State.outstandingSound.endRead (ho : s.outstandingSound) (hs : s.streamsSound) (hl : s.loadSound) {r : Read}
    (hr : s.xmc.inFlight = some r) (result : Option (List Byte)) : (s.endRead r result).outstandingSound := by
  have hrun := hl.running hr
  rw [State.endRead_cases]
  generalize hx : (if result.isNone then _ else _ : Xmc) = x
  have hidle : x.inFlight = none := by rw [← hx]; split <;> rfl
  have hrequest : x.loaderRequest = s.xmc.loaderRequest := by rw [← hx]; split <;> rfl
  have hplace : ∀ p k, x.slotRequest p k = s.xmc.slotRequest p k := fun p k => by rw [← hx]; split <;> rfl
  have hserves : ∀ p k n, s.xmc.servesSlot p k n ↔ r.requester = .slot p k ∧ r.orphan = false ∧ r.line = n := by
    simp [Xmc.servesSlot, hr]
  have hother : ∀ p k, ¬ (r.requester = .slot p k ∧ r.orphan = false) → x.awaits p k (s.wanted p k) := fun p k hno =>
    (ho.reads p k).of_read_end (fun n hn => hno (((hserves p k n).mp hn).imp_right And.left)) (hplace p k) hidle
  refine State.readsSound.grant ?_
  by_cases horphan : r.orphan = true
  · rw [if_pos horphan]
    exact fun p k => hother p k (by simp [horphan])
  rw [if_neg horphan]
  rw [Bool.not_eq_true] at horphan
  have hloader : r.requester = .loader → ∀ t, (s.putXmc x).LoaderMoves t → t.readsSound := by
    intro hq t ht
    have hclosed : ∀ p k, (s.streams.get p).slots.get k = .empty := fun p k => by
      have hquiet := (hl.betweenReads hrun ⟨r, hr, hq, horphan, rfl⟩ hidle hrequest).quiet
      exact hs.empty_of_closed (by rw [StreamUnit.isOpen, show (s.streams.get p).state = _ from hquiet.idle p]) k
    obtain ⟨hslots, hrequests, hflight⟩ := ht.slots
    have hput : (s.putXmc x).readsSound := fun p k => hother p k (by simp [hq])
    exact hput.of_empty hclosed (fun p k => by rw [hslots]; exact hclosed p k) hrequests hflight
  split
  · rename_i hslot
    intro p k
    rw [State.wanted_putSlot]
    split
    · rename_i hsame
      obtain ⟨rfl, rfl⟩ := hsame
      rw [Settings.requestFor_receive]
      exact ⟨(hplace p k).trans ((ho.reads p k).slotRequest_of_serves ((hserves p k _).mpr ⟨hslot, horphan, rfl⟩)),
        by simp [Xmc.servesSlot, hidle]⟩
    · rename_i hne
      refine hother p k fun ⟨hserved, _⟩ => hne ?_
      cases hslot.symm.trans hserved
      exact ⟨rfl, rfl⟩
  · exact hloader ‹_› _ (State.loaderData_moves _ _)
  · exact hloader ‹_› _ (State.loaderFault_moves _)

/-- An access before the sixteenth leaves whom the read in flight serves (R71). -/
theorem execAccessCompletes_outstandingSound {xd : Halfword} (ho : s.outstandingSound) (hs : s.streamsSound)
    (hl : s.loadSound) (h : execAccessCompletes xd s = .next t) : t.outstandingSound := by
  unfold execAccessCompletes at h
  dsimp only at h
  split at h
  · cases h; exact ho
  rename_i r hr
  split at h
  · cases h
    refine State.outstandingSound_iff.mpr ⟨?_, fun p k => (ho.reads p k).of_same rfl fun n => ?_⟩
    · rintro ⟨⟩
    · simp [Xmc.servesSlot, hr]
  split at h <;> cases h
  exact ho.endRead hs hl hr _

theorem exec_outstandingSound (ho : s.outstandingSound) (hs : s.streamsSound) (hl : s.loadSound)
    (h : exec c s = .next t) : t.outstandingSound := by
  have request : ∀ {p k payload} {owner : State → Answer}, (∀ s' r, owner s = .ok (s', r) → s'.outstandingSound) →
      s.pointOfAction p k payload owner = .next t → t.outstandingSound := fun ho' =>
    State.pointOfAction_keeps ho (fun u r hu => hu.of_same (by simp) (by simp)) (fun _ _ => ho')
  cases c with
  | seek p line => exact request (fun _ _ => seekOwner_outstandingSound ho) h
  | next p => exact request (fun _ _ => nextOwner_outstandingSound ho) h
  | portSet p level prefetch mask base size => exact request (fun _ _ => portSetOwner_outstandingSound hs ho) h
  | reload p => exact request (fun _ _ => reloadOwner_outstandingSound ho) h
  | portReset p =>
    refine request (owner := portResetOwner p) (fun s' r ho' => ?_) h
    cases ho'
    exact ho.portReset p
  | deviceReset => cases h; exact s.deviceReset_outstandingSound
  | resetEnd straps =>
    replace h : execResetEnd straps s = .next t := h
    unfold execResetEnd at h
    split at h <;> cases h
    · exact State.readsSound.grant fun p k => (ho.reads p k).of_inFlight rfl rfl
    · exact ho
  | drainExpiry => exact execDrainExpiry_outstandingSound ho h
  | accessCompletes xd => exact execAccessCompletes_outstandingSound ho hs hl h
  | readyLimitExceeded =>
    replace h : execReadyLimitExceeded s = .next t := h
    unfold execReadyLimitExceeded at h
    split at h <;> cases h
    · exact ho
    · exact ho.endRead hs hl ‹_› _
  | _ =>
    have hsame := exec_of_leavesFetching rfl h
    exact ho.of_same hsame.xmc hsame.streams

end

/-- The queue's rest is no concern of the outstanding reads. -/
theorem State.outstandingSound.putPending {s : State} (h : s.outstandingSound) (rest : List Instr) :
    (s.putPending rest).outstandingSound := h.of_same rfl rfl

/-- Settles O56, command by command: a slot filled waited for nothing, a slot abandoned is released, the end of a read reaches the one
slot it served, and a grant follows wherever a request is placed or a read ends. -/
theorem stepKeepsOutstandingReads : Obligations.StepKeepsOutstandingReads := by
  intro s t hload hstreams hreads hstep
  rcases step_cases hstep with ⟨-, rfl⟩ | ⟨c, rest, -, hexec⟩
  · exact hreads
  · exact exec_outstandingSound (hreads.putPending rest) (hstreams.putPending rest) (hload.putPending rest) hexec

end Sys2Proof.Machine

/-! # The external memory controller (file 04)

What a grant chooses is read off a rank of the requesters; what the end of a line read does is said once for each place its result
goes to: a line slot, nothing, or the loader. -/

namespace Sys2Proof.Machine

/-! ## The grant (R67 to R69) -/

section
variable {x : Xmc} {pointer : Port} {roles : PerPort SlotId} {q q' : Requester} {r r' : Request}

/-- A requester's place in the grant's order (R68): the loader first, then by port turn, and of one port's two slots the delivery
slot first. -/
def grantRank (pointer : Port) (roles : PerPort SlotId) : Requester → Nat
  | .loader => 0
  | .slot p k => 1 + 2 * turnOf pointer p + if k = roles.get p then 0 else 1

/-- The list a grant searches rises by rank. -/
theorem grantOrder_pairwise (pointer : Port) (roles : PerPort SlotId) :
    (grantOrder pointer roles).Pairwise fun q q' => grantRank pointer roles q < grantRank pointer roles q' := by
  cases pointer <;> simp [grantOrder, grantRank, nextPort, turnOf, portIndex]

/-- The chosen requester is a candidate. -/
theorem Xmc.isCandidate_of_choose (h : x.choose roles = some q) : x.isCandidate q = true :=
  List.find?_some h

/-- No candidate ranks before the chosen one (R68 steps 2 and 3). -/
theorem Xmc.grantRank_le_of_choose (h : x.choose roles = some q) (hq' : x.isCandidate q' = true) :
    grantRank x.pointer roles q ≤ grantRank x.pointer roles q' := by
  obtain ⟨-, before, after, hlist, hbefore⟩ := List.find?_eq_some_iff_append.mp h
  have hrises := grantOrder_pairwise x.pointer roles
  have hmem := mem_grantOrder x.pointer roles q'
  rw [hlist, List.pairwise_append, List.pairwise_cons] at hrises
  rw [hlist, List.mem_append, List.mem_cons] at hmem
  obtain ⟨-, ⟨hafter, -⟩, -⟩ := hrises
  rcases hmem with hmem | rfl | hmem
  · simpa [hq'] using hbefore q' hmem
  · exact le_rfl
  · exact (hafter q' hmem).le

/-- The chosen request is of the lowest effective level (R68 step 1). -/
theorem Xmc.effective_le_of_choose (h : x.choose roles = some q) (hr : x.requestOf q = some r)
    (hr' : x.requestOf q' = some r') : r.effective ≤ r'.effective := by
  obtain ⟨r₀, hr₀, hlow⟩ := (x.isCandidate_iff q).mp (Xmc.isCandidate_of_choose h)
  cases hr.symm.trans hr₀
  exact (List.min?_eq_some_iff.mp hlow).2 _ (List.mem_map_of_mem (Xmc.mem_requests.mpr ⟨q', hr'⟩))

/-- A request that ranks before the chosen one is of a higher effective level (R68). -/
theorem Xmc.effective_lt_of_choose (h : x.choose roles = some q) (hr : x.requestOf q = some r)
    (hr' : x.requestOf q' = some r') (hrank : grantRank x.pointer roles q' < grantRank x.pointer roles q) :
    r.effective < r'.effective := by
  refine lt_of_le_of_ne (Xmc.effective_le_of_choose h hr hr') fun heq => ?_
  obtain ⟨r₀, hr₀, hlow⟩ := (x.isCandidate_iff q).mp (Xmc.isCandidate_of_choose h)
  cases hr.symm.trans hr₀
  have hcandidate : x.isCandidate q' = true := (x.isCandidate_iff q').mpr ⟨r', hr', heq ▸ hlow⟩
  exact absurd (Xmc.grantRank_le_of_choose h hcandidate) (Nat.not_le.mpr hrank)

/-- No grant is taken from an empty set (R67). -/
theorem Xmc.grant_of_empty (h : ∀ q, x.requestOf q = none) : x.grant roles = x := by
  rcases x.grant_cases roles with ⟨hg, -⟩ | ⟨-, q, r, -, hr, -⟩
  · exact hg
  · cases (h q).symm.trans hr

/-- The grant of an idle controller leaves it idle exactly when the set was empty (R67). -/
theorem Xmc.inFlight_grant_eq_none_iff (hidle : x.inFlight = none) :
    (x.grant roles).inFlight = none ↔ ∀ q, x.requestOf q = none :=
  ⟨Xmc.requestOf_of_grant_idle, fun h => by rw [Xmc.grant_of_empty h, hidle]⟩

/-- An idle controller with a request in the set chooses one (R67). -/
theorem Xmc.exists_choose (hidle : x.inFlight = none) (hq : x.requestOf q ≠ none) :
    ∃ q' r, x.choose roles = some q' ∧ x.requestOf q' = some r := by
  rcases x.grant_cases roles with ⟨hg, -⟩ | ⟨-, q', r, hchoose, hr, -⟩
  · exact absurd (Xmc.requestOf_of_grant_idle (hg.symm ▸ hidle : (x.grant roles).inFlight = none) q) hq
  · exact ⟨q', r, hchoose, hr⟩

/-- The grant of the chosen request (R67, R68). -/
theorem Xmc.grant_of_choose (hidle : x.inFlight = none) (h : x.choose roles = some q) (hr : x.requestOf q = some r) :
    x.grant roles = { (x.remove q).ageAll with
      inFlight := some ⟨q, r.line, [], false⟩, pointer := pointerAfter x.pointer q } := by
  simp [Xmc.grant, Xmc.grantTo, hidle, h, hr]

/-- The set after the grant: the granted request has left it, and every other gained a pass (R67, R69). -/
theorem Xmc.requestOf_grant (hidle : x.inFlight = none) (h : x.choose roles = some q) (hr : x.requestOf q = some r)
    (q' : Requester) : (x.grant roles).requestOf q' = if q' = q then none else (x.requestOf q').map Request.age := by
  have hset : (x.grant roles).requestOf q' = (x.remove q).ageAll.requestOf q' := by
    rw [Xmc.grant_of_choose hidle h hr]
    cases q' <;> rfl
  rw [hset, Xmc.requestOf_ageAll, Xmc.requestOf_remove]
  split <;> rfl

end

/-- Settles O16: the choice is the candidate of least rank, and the grant makes its request the read in flight. -/
theorem grantChoosesAndStartsTheRead : Obligations.GrantChoosesAndStartsTheRead := by
  refine ⟨fun x roles q r hchoose hr => ⟨?_, ?_, ?_⟩, fun x roles hno => ?_, fun x roles hidle => ⟨?_, ?_⟩⟩
  · exact fun q' r' hr' => Xmc.effective_le_of_choose hchoose hr hr'
  · intro r' hr' hq
    refine Xmc.effective_lt_of_choose (q' := .loader) hchoose hr hr' ?_
    cases q with
    | loader => exact absurd rfl hq
    | slot p k => simp only [grantRank]; omega
  · rintro p k rfl
    refine ⟨fun p' k' r' hr' hturn => ?_, fun r' hr' hk => ?_⟩
    · refine Xmc.effective_lt_of_choose (q' := .slot p' k') hchoose hr hr' ?_
      simp only [grantRank]
      split <;> split <;> omega
    · refine Xmc.effective_lt_of_choose (q' := .slot p (roles.get p)) hchoose hr hr' ?_
      simp [grantRank, hk]
  · rcases hno with ⟨r, hr⟩ | hempty
    · exact Xmc.grant_of_busy roles (by simp [hr])
    · exact Xmc.grant_of_empty hempty
  · exact fun q hq => Xmc.exists_choose hidle hq
  · intro q r hchoose hr
    have hgrant := Xmc.grant_of_choose hidle hchoose hr
    have hset := Xmc.requestOf_grant hidle hchoose hr
    refine ⟨by rw [hgrant], by rw [hset, if_pos rfl], fun q' hq' => by rw [hset, if_neg hq']; rfl, ?_, ?_,
      by simp, by simp⟩
    · rintro p k rfl
      rw [hgrant]
      rfl
    · rintro rfl
      rw [hgrant]
      rfl

/-! ## The two events of the external memory port (R71, R72) -/

section
variable {s : State} {r : Read} {xd : Halfword}

/-- An access before the sixteenth adds its halfword to the read (R71). -/
theorem exec_accessCompletes_early (hr : s.xmc.inFlight = some r) (hlen : r.halfwords.length < 15) :
    exec (.accessCompletes xd) s = .next (s.putXmc { s.xmc with
      inFlight := some { r with halfwords := r.halfwords ++ [xd] } }) := by
  have hlt : (r.halfwords ++ [xd]).length < Config.accessesPerLine := by
    rw [List.length_append, List.length_singleton]
    exact Nat.succ_lt_succ hlen
  change execAccessCompletes xd s = _
  unfold execAccessCompletes
  rw [hr]
  exact if_pos hlt

/-- The sixteenth access ends a read that is orphaned or a line slot's, with its data (R71, R73). -/
theorem exec_accessCompletes_last (hr : s.xmc.inFlight = some r) (hlen : r.halfwords.length = 15)
    (hother : r.orphan = true ∨ r.requester ≠ .loader) :
    exec (.accessCompletes xd) s = .next (s.endRead r (some (bytesOfHalfwords (r.halfwords ++ [xd])))) := by
  have hlast : ¬ (r.halfwords ++ [xd]).length < Config.accessesPerLine := by
    rw [List.length_append, hlen]
    exact Nat.lt_irrefl 16
  have hinside : ∀ result, s.endReadOutsideStore r result = false := fun result => by
    rcases hother with h | h <;> simp [State.endReadOutsideStore, h]
  change execAccessCompletes xd s = _
  unfold execAccessCompletes
  rw [hr]
  dsimp only
  rw [if_neg hlast, hinside, if_neg Bool.false_ne_true]

/-- The end of the ready limit ends the read as a fault (R72, R73). -/
theorem exec_readyLimitExceeded (hr : s.xmc.inFlight = some r) :
    exec .readyLimitExceeded s = .next (s.endRead r none) := by
  change execReadyLimitExceeded s = _
  unfold execReadyLimitExceeded
  rw [hr]

/-- The sixteen halfwords of a read give the line they spell (R71). -/
theorem Read.gives_bytesOfHalfwords (hlen : r.halfwords.length = 15) (xd : Halfword) :
    r.gives xd (bytesOfHalfwords (r.halfwords ++ [xd])) := by
  refine ⟨hlen, by simp [length_bytesOfHalfwords, hlen], fun j _ => ?_⟩
  obtain ⟨hlow, hhigh⟩ := byteAt_bytesOfHalfwords (r.halfwords ++ [xd]) j
  rw [hlow, hhigh]
  exact Nat.mod_add_div _ 256

/-- The line the memory port works at while an access is under way, outside a device reset (R189). -/
theorem State.accessUnderWay_of_running (hrun : s.inReset = false) : s.accessUnderWay .underWay = s.xmc.inFlight := by
  simp [State.accessUnderWay, hrun]

/-- No access is under way between two accesses, while the controller is idle and while a device reset lasts (R189). -/
theorem State.accessUnderWay_eq_none {point : AccessPoint}
    (h : point = .between ∨ s.xmc.inFlight = none ∨ s.inReset = true) : s.accessUnderWay point = none := by
  unfold State.accessUnderWay
  split
  · rfl
  · rename_i hrun
    cases point with
    | between => rfl
    | underWay => simpa [hrun] using h

end

/-! ## The end of a line read (R47, R73, R76, R79) -/

section
variable {s : State} {r : Read}

/-- The controller once its read has ended, before the grant that follows: idle, and a fault recorded (R73, R79). -/
def Xmc.readEnded (x : Xmc) (r : Read) (result : Option (List Byte)) : Xmc :=
  if result.isNone then x.faulted r.line else { x with inFlight := none }

/-- The end of a read is no concern of the set (R73). -/
theorem Xmc.requestOf_readEnded (x : Xmc) (r : Read) (result : Option (List Byte)) (q : Requester) :
    (x.readEnded r result).requestOf q = x.requestOf q := by
  cases result <;> cases q <;> rfl

/-- After the end of a read the controller reads again exactly when the set held a request (R67, R73). -/
theorem Xmc.inFlight_grant_readEnded_eq_none_iff (x : Xmc) (r : Read) (result : Option (List Byte)) (roles : PerPort SlotId) :
    ((x.readEnded r result).grant roles).inFlight = none ↔ ∀ q, x.requestOf q = none := by
  have hidle : (x.readEnded r result).inFlight = none := by cases result <;> rfl
  simp only [Xmc.inFlight_grant_eq_none_iff hidle, Xmc.requestOf_readEnded]

/-- The end of an orphaned read reaches nothing but the controller (R73, R76). -/
theorem State.endRead_of_orphan (horphan : r.orphan = true) (result : Option (List Byte)) :
    s.endRead r result = { s with xmc := (s.xmc.readEnded r result).grant s.roles } := by
  rw [State.endRead_cases, if_pos horphan]
  rfl

/-- The end of a line slot's read gives the slot its result (R47, R73). -/
theorem State.endRead_of_slot (horphan : r.orphan = false) {p : Port} {k : SlotId} (hslot : r.requester = .slot p k)
    (result : Option (List Byte)) :
    s.endRead r result = { s with
      streams := s.streams.set p { s.streams.get p with
        slots := (s.streams.get p).slots.set k (((s.streams.get p).slots.get k).receive result) }
      xmc := (s.xmc.readEnded r result).grant s.roles } := by
  rw [State.endRead_cases, horphan, if_neg Bool.false_ne_true, hslot, State.grant, State.roles_putSlot]
  rfl

/-- A fault of the loader's read goes to the loader (R73, R74). -/
theorem State.endRead_of_loader_fault (horphan : r.orphan = false) (hloader : r.requester = .loader) :
    s.endRead r none = ((s.putXmc (s.xmc.faulted r.line)).loaderFault).grant := by
  rw [State.endRead_cases, horphan, if_neg Bool.false_ne_true, hloader]
  rfl

end

/-- Settles O17: the port's outputs follow the access under way; the sixteenth halfword ends the read. -/
theorem accessesFillTheLine : Obligations.AccessesFillTheLine := by
  refine ⟨fun s point h => ?_, fun xd s r hr => ⟨fun hrun => ?_, fun hlen => ?_,
    fun p k line hlen horphan hslot hwaiting => ?_⟩⟩
  · simp [State.memorySelected, State.memoryAddress, State.accessUnderWay_eq_none h]
  · simp [State.memorySelected, State.memoryAddress, State.accessUnderWay_of_running hrun, hr]
  · exact exec_accessCompletes_early hr hlen
  · refine ⟨_, Read.gives_bytesOfHalfwords hlen xd, ?_⟩
    rw [exec_accessCompletes_last hr hlen (.inr (by simp [hslot])), State.endRead_of_slot horphan hslot, hwaiting]
    rfl

/-- Settles O18: a fault reaches the slot it serves; an orphaned read reaches the controller only. -/
theorem faultedAndOrphanedReadsEnd : Obligations.FaultedAndOrphanedReadsEnd := by
  intro s r hr
  refine ⟨fun p k line horphan hslot hwaiting => ?_, fun horphan => ⟨?_, fun xd hlen => ?_⟩, ?_, ?_⟩
  · rw [exec_readyLimitExceeded hr, State.endRead_of_slot horphan hslot, hwaiting]
    rfl
  · rw [exec_readyLimitExceeded hr, State.endRead_of_orphan horphan]
    rfl
  · rw [exec_accessCompletes_last hr hlen (.inl horphan), State.endRead_of_orphan horphan]
    rfl
  · exact Xmc.inFlight_grant_readEnded_eq_none_iff s.xmc r (some []) s.roles
  · exact Xmc.inFlight_grant_readEnded_eq_none_iff s.xmc r none s.roles

/-! ## The loader's failed reads (R140, R146 to R148) -/

section
variable {s : State} {r : Read}

/-- A fault of the loader's read, with the grant that follows (R72, R73). -/
theorem exec_readyLimitExceeded_loader (hr : s.loaderReads r) :
    exec .readyLimitExceeded s = .next ((s.putXmc (s.xmc.faulted r.line)).loaderFault).grant := by
  obtain ⟨hflight, hloader, horphan⟩ := hr
  rw [exec_readyLimitExceeded hflight, State.endRead_of_loader_fault horphan hloader]

/-- A failed header, with the grant that follows, ends the load with the built-in defaults and its cause (R140, R147, R148). -/
theorem State.failHeader_grant (s : State) (x : Xmc) {cause : HeaderCause} (hcause : cause ≠ .ok) :
    ((s.putXmc x).failHeader cause).grant = s.loadEnded Defaults.builtIn
      { s.loader.report with result := .none, headerCause := cause } (x.grant s.roles) := by
  have hresult : ({ s.loader.report with headerCause := cause } : LoadReport).finalResult = .none := if_pos hcause
  unfold State.failHeader
  rw [State.endLoad_eq_loadEnded]
  simp [State.putLoader, State.putXmc, State.loadEnded, State.grant, State.roles, hresult]

/-- A record that is skipped, with the grant that follows (R146). -/
theorem State.skipRecord_grant (s : State) {x : Xmc} {d : Defaults} (cause : SkipCause) (hidle : x.inFlight = none)
    (hpending : s.loader.pendingRecord = some d) (hheader : s.loader.report.headerCause = .ok) :
    s.recordDone d (s.loader.report.withSkip s.loader.recordIndex cause) x ((s.putXmc x).skipRecord cause).grant := by
  rw [State.skipRecord_eq]
  exact State.recordDone_putXmc.mp (State.recordDone_of_beginRecord (s.putXmc x) hidle hpending hheader)

end

/-- Settles O45: a fault of the header's read and a line that fails its checks both fail the header. -/
theorem failedHeaderEndsTheLoad : Obligations.FailedHeaderEndsTheLoad := by
  intro s r hr hstep
  refine ⟨Defaults.builtIn, rfl, rfl, fun q => by cases q <;> rfl, ⟨_, exec_readyLimitExceeded_loader hr, ?_⟩,
    fun xd h cause hgives hcheck hcause => ?_⟩
  · have hfault : ∀ x, (s.putXmc x).loaderFault = (s.putXmc x).failHeader .headerFault := fun x => by
      simp [State.loaderFault, hstep]
    rw [hfault, State.failHeader_grant s _ (by decide)]
  · have hdata : (s.putXmc s.xmc.clearRead).loaderData h = (s.putXmc s.xmc.clearRead).failHeader cause := by
      simp [State.loaderData, hstep, hcheck, hcause]
    have hstore : s.loaderInStore = true := by simp [State.loaderInStore, hstep]
    refine ⟨_, exec_accessCompletes_loader hr hgives hstore, ?_⟩
    rw [hdata, State.failHeader_grant s _ hcause]
    rfl

/-- Settles O49: a fault of a record's line and of a content line both skip the record. -/
theorem loaderFaultSkipsTheRecord : Obligations.LoaderFaultSkipsTheRecord := by
  intro s r d cause hr hcause hpending hheader
  have hfault : ∀ x, (s.putXmc x).loaderFault = (s.putXmc x).skipRecord cause := fun x => by
    rcases hcause with ⟨hstep, rfl⟩ | ⟨⟨record, chosen, i, hstep⟩, rfl⟩ <;> simp [State.loaderFault, hstep]
  refine ⟨_, exec_readyLimitExceeded_loader hr, ?_⟩
  rw [hfault]
  exact State.skipRecord_grant s cause rfl hpending hheader

end Sys2Proof.Machine

/-! # Generation control (file 05)

What every step keeps of C, S, the bindings and the drain, and what a SEEK, a COMMIT and a tick make of them. -/

namespace Sys2Proof.Machine

/-! ## A change of binding and the end of the drain (R88, R89, R99) -/

section
variable {s : State} {p : Port} {b : Option Nat}

/-- A port that is bound to another generation than S, or to none, was the last one bound to S exactly when no port is left
bound to S. -/
theorem State.lastOnSuperseded_iff (hb : ∀ g, s.gen.superseded = some g → b ≠ some g) :
    s.lastOnSuperseded p ↔ ∃ g, s.gen.superseded = some g ∧ s.gen.bindings.get p = some g ∧
      ∀ q, (s.gen.bindings.set p b).get q ≠ some g := by
  refine exists_congr fun g => and_congr_right fun hsup => and_congr_right fun _ => ⟨fun h q => ?_, fun h q hq => ?_⟩
  · by_cases hq : q = p
    · subst hq; simpa using hb g hsup
    · simpa [hq] using h q hq
  · simpa [hq] using h q

/-- The last port bound to S takes the drain with it (R88, R89). -/
theorem State.rebind_of_last (hb : ∀ g, s.gen.superseded = some g → b ≠ some g) (h : s.lastOnSuperseded p) :
    s.rebind p b = (s.putGen { s.gen with bindings := s.gen.bindings.set p b }).drainEnd := by
  rcases s.rebind_cases p b with ⟨-, hnone⟩ | ⟨_, -, -, -, hr⟩
  · exact absurd ((State.lastOnSuperseded_iff hb).mp h) hnone
  · exact hr

/-- Any other port changes its binding alone (R88, R89). -/
theorem State.rebind_of_not_last (hb : ∀ g, s.gen.superseded = some g → b ≠ some g) (h : ¬ s.lastOnSuperseded p) :
    s.rebind p b = { s with gen := { s.gen with bindings := s.gen.bindings.set p b } } := by
  rcases s.rebind_cases p b with ⟨hr, -⟩ | ⟨g, hsup, hbound, hleft, -⟩
  · exact hr
  · exact absurd ((State.lastOnSuperseded_iff hb).mpr ⟨g, hsup, hbound, hleft⟩) h

/-- C is not S (R87). -/
theorem State.generationsSound.current_ne (h : s.generationsSound) (g : Nat) (hg : s.gen.superseded = some g) :
    some s.gen.current ≠ some g := fun he => (h.superseded g hg).2 (Option.some.inj he).symm

end

/-! ## The laws of generation control (R85 to R87, R90) -/

/-- The laws of C, S, the bindings and the drain timer. -/
structure GenControl.sound (g : GenControl) : Prop where
  current : isGeneration g.current
  superseded : ∀ x, g.superseded = some x → isGeneration x ∧ x ≠ g.current
  binding : ∀ p x, g.bindings.get p = some x → x = g.current ∨ g.superseded = some x
  drained : ∀ x, g.superseded = some x → ∃ p, g.bindings.get p = some x
  timer : g.drainTimer.isSome = g.superseded.isSome

/-- The laws of one entry, where S is `sup`: its born generation is a generation number, and it is RETIRING only while S
exists. -/
def Entry.dated (sup : Option Nat) : Entry → Prop
  | .free => True
  | .staged _ _ => True
  | .live _ born _ => isGeneration born
  | .retiring _ born => isGeneration born ∧ sup ≠ none

/-- The laws of every entry. -/
def State.entriesDated (s : State) : Prop := ∀ e ∈ s.table, e.dated s.gen.superseded

/-- The laws fall into those of generation control and those of the entries. -/
theorem State.generationsSound_iff {s : State} : s.generationsSound ↔ s.gen.sound ∧ s.entriesDated := by
  constructor
  · rintro ⟨hcurrent, hsup, hbinding, hdrained, htimer, hretiring, hborn⟩
    refine ⟨⟨hcurrent, hsup, hbinding, hdrained, htimer⟩, fun e he => ?_⟩
    cases e with
    | free => trivial
    | staged f fillMap => trivial
    | live f born mark => exact hborn _ he f born (.inl ⟨mark, rfl⟩)
    | retiring f born => exact ⟨hborn _ he f born (.inr rfl), fun hnone => Bool.noConfusion (hretiring hnone _ he)⟩
  · rintro ⟨⟨hcurrent, hsup, hbinding, hdrained, htimer⟩, hentries⟩
    refine ⟨hcurrent, hsup, hbinding, hdrained, htimer, fun hnone e he => ?_, fun e he f born hlive => ?_⟩
    · have hdated := hentries e he
      cases e with
      | retiring f born => exact absurd hnone hdated.2
      | free | staged | live => rfl
    · have hdated := hentries e he
      rcases hlive with ⟨mark, rfl⟩ | rfl
      · exact hdated
      · exact hdated.1

/-! ### Generation control by itself -/

section
variable {g : GenControl} {s : State} {p : Port} {b : Option Nat}

/-- While no drain runs, C is a generation number and every bound port is bound to it. -/
theorem GenControl.sound_of_no_drain (hcurrent : isGeneration g.current) (hsup : g.superseded = none)
    (htimer : g.drainTimer = none) (hbinding : ∀ p x, g.bindings.get p = some x → x = g.current) : g.sound :=
  ⟨hcurrent, by simp [hsup], fun p x hx => .inl (hbinding p x hx), by simp [hsup], by simp [hsup, htimer]⟩

/-- The values after a device reset or RELOAD (R103, R104). -/
theorem GenControl.reset_sound : GenControl.reset.sound := by
  refine GenControl.sound_of_no_drain ⟨le_refl _, by decide⟩ rfl rfl fun p x hx => ?_
  cases p <;> cases hx

/-- No drain, no timer (R90). -/
theorem GenControl.sound.drainTimer_eq_none (h : g.sound) (hsup : g.superseded = none) : g.drainTimer = none := by
  simpa [hsup] using h.timer

/-- A generation number is followed by a generation number (R86). -/
theorem isGeneration_nextGeneration {c : Nat} (h : isGeneration c) : isGeneration (nextGeneration c) := by
  unfold isGeneration nextGeneration Config.maxGeneration at *
  split <;> omega

/-- A port is bound to C or unbound, with the end of the drain where it was the last of S (R88, R89). -/
theorem GenControl.sound.rebind (h : s.gen.sound) (hb : ∀ g, b = some g → g = s.gen.current) :
    (s.rebind p b).gen.sound := by
  obtain ⟨hcurrent, hsup, hbinding, hdrained, htimer⟩ := h
  have hset : ∀ q x, (s.gen.bindings.set p b).get q = some x → x = s.gen.current ∨ s.gen.superseded = some x := by
    intro q x hx
    rw [PerPort.get_set] at hx
    split at hx
    · exact .inl (hb x hx)
    · exact hbinding q x hx
  have hne : ∀ g, s.gen.superseded = some g → b ≠ some g := fun g hg hbg => (hsup g hg).2 (hb g hbg)
  by_cases hlast : s.lastOnSuperseded p
  · rw [State.rebind_of_last hne hlast]
    obtain ⟨g, hg, -, hleft⟩ := (State.lastOnSuperseded_iff hne).mp hlast
    refine GenControl.sound_of_no_drain hcurrent rfl rfl fun q x hx => (hset q x hx).resolve_right fun hsx => ?_
    rw [hg] at hsx
    exact hleft q (hx.trans hsx.symm)
  · rw [State.rebind_of_not_last hne hlast]
    refine ⟨hcurrent, hsup, hset, fun g hg => ?_, htimer⟩
    by_contra hleft
    obtain ⟨q, hq⟩ := hdrained g hg
    have hqp : q = p := by
      by_contra hqp
      exact hleft ⟨q, by simpa [hqp] using hq⟩
    exact hlast ((State.lastOnSuperseded_iff hne).mpr ⟨g, hg, hqp ▸ hq, not_exists.mp hleft⟩)

/-- A commit step: S is the old C exactly when some port is bound to it (R92, R93). -/
theorem GenControl.sound.commitStep (h : s.gen.sound) (hsup : s.gen.superseded = none) : s.commitStep.gen.sound := by
  have hbinding : ∀ p x, s.gen.bindings.get p = some x → x = s.gen.current := fun p x hx =>
    (h.binding p x hx).resolve_right (by simp [hsup])
  have hnext := isGeneration_nextGeneration h.current
  rw [State.commitStep_gen]
  split
  · rename_i hbound
    refine ⟨hnext, ?_, fun p x hx => .inr (congrArg some (hbinding p x hx).symm), ?_, rfl⟩
    · rintro x ⟨⟩
      exact ⟨h.current, (nextGeneration_ne h.current).symm⟩
    · rintro x ⟨⟩
      exact State.currentIsBound_iff.mp hbound
  · rename_i hfree
    refine GenControl.sound_of_no_drain hnext hsup (h.drainTimer_eq_none hsup) fun p x hx => absurd ?_ hfree
    exact State.currentIsBound_iff.mpr ⟨p, hbinding p x hx ▸ hx⟩

/-- The drain expiry unbinds the ports bound to S before it ends the drain (R100). -/
theorem GenControl.sound.expireAll (h : s.gen.sound) {x : Nat} (hsup : s.gen.superseded = some x) :
    (allPorts.foldl (fun s p => s.expirePort x p) s).drainEnd.gen.sound := by
  have hcurrent : (allPorts.foldl (fun s p => s.expirePort x p) s).drainEnd.gen.current = s.gen.current := by
    simp [State.drainEnd_effect, State.expirePort_generations]
  refine GenControl.sound_of_no_drain (hcurrent ▸ h.current) rfl rfl fun q y hy => ?_
  have hbound := (s.expireAll_bindings x q).symm.trans hy
  split at hbound
  · cases hbound
  · rename_i hq
    rw [hcurrent]
    refine (h.binding q y hbound).resolve_right fun hsy => hq ?_
    rw [hbound, ← hsy, hsup]

/-- A tick leaves the drain timer running or stopped (R98). -/
theorem GenControl.sound.tick (h : g.sound) : ({ g with drainTimer := g.drainTimer.map Timer.tick } : GenControl).sound :=
  ⟨h.current, h.superseded, h.binding, h.drained, by simpa using h.timer⟩

end

/-! ### What each command does to generation control -/

/-- The commands that leave generation control: all but SEEK, COMMIT, RELOAD, PORT_RESET, the device reset, the tick and the drain's
expiry. -/
def leavesGenerations : Instr → Bool
  | .next .. | .portSet .. | .status .. | .tableRead .. | .noticeTake .. | .claim .. | .add .. | .fill .. | .remove ..
  | .abort .. | .badFrame .. | .badKind .. | .selectAsserted .. | .frameDiscarded .. | .responseLost .. | .resetEnd ..
  | .sessionExpiry | .accessCompletes .. | .readyLimitExceeded | .byteReceived .. | .byteSent .. | .selectReleased .. => true
  | .seek .. | .commit .. | .reload .. | .portReset .. | .deviceReset | .timebaseTick | .drainExpiry => false

section
variable {c : Instr} {s s' t : State} {p : Port} {r : Response}

/-- Their own effects are on the streams, the table, the session, the loader and the links. -/
theorem exec_of_leavesGenerations (hc : leavesGenerations c = true) (h : exec c s = .next t) : t.gen = s.gen := by
  have request : ∀ {p k payload} {owner : State → Answer}, (∀ s' r, owner s = .ok (s', r) → s'.gen = s.gen) →
      s.pointOfAction p k payload owner = .next t → t.gen = s.gen := fun ho =>
    State.pointOfAction_keeps (law := fun t => t.gen = s.gen) rfl (fun u r hu => by simpa using hu) (fun _ _ => ho)
  cases c with
  | next p =>
    refine request (fun s' r ho => ?_) h
    rcases nextOwner_cases ho with rfl | ⟨-, ⟨_, -, rfl⟩ | ⟨b, rfl | ⟨-, rfl⟩, rfl | ⟨rfl, -⟩⟩⟩ <;> simp
  | portSet p level prefetch mask base size =>
    refine request (fun s' r ho => ?_) h
    unfold portSetOwner at ho
    (repeat' split at ho) <;> cases ho <;> simp
  | claim p wait =>
    refine request (owner := claimOwner p wait.toNat) (fun s' r ho => ?_) h
    unfold claimOwner claimBody at ho
    (repeat' split at ho) <;> cases ho <;> simp
  | add p tag line length scope sum =>
    refine request (fun s' r ho => ?_) h
    unfold addOwner addBody at ho
    (repeat' split at ho) <;> cases ho <;> simp
  | fill p slot index data =>
    refine request (fun s' r ho => ?_) h
    unfold fillOwner fillBody at ho
    (repeat' split at ho) <;> cases ho <;> simp
  | remove p slot =>
    refine request (fun s' r ho => ?_) h
    unfold removeOwner removeBody at ho
    (repeat' split at ho) <;> cases ho <;> simp
  | abort p =>
    refine request (fun s' r ho => ?_) h
    unfold abortOwner at ho
    (repeat' split at ho) <;> cases ho <;> simp
  | resetEnd straps =>
    replace h : execResetEnd straps s = .next t := h
    unfold execResetEnd State.resetEnd at h
    split at h <;> cases h <;> simp
  | sessionExpiry =>
    replace h : execSessionExpiry s = .next t := h
    unfold execSessionExpiry at h
    split at h <;> cases h <;> simp
  | accessCompletes xd =>
    replace h : execAccessCompletes xd s = .next t := h
    unfold execAccessCompletes at h
    dsimp only at h
    (repeat' split at h) <;> cases h <;> simp
  | readyLimitExceeded =>
    replace h : execReadyLimitExceeded s = .next t := h
    unfold execReadyLimitExceeded at h
    split at h <;> cases h <;> simp
  | seek | commit | reload | portReset | deviceReset | timebaseTick | drainExpiry => cases hc
  | _ =>
    obtain ⟨notices, links, rfl⟩ := exec_of_onlyReports rfl h
    rfl

/-- A SEEK binds its port to C (R50 step 2). -/
theorem seekOwner_genSound {line : Nat} (hs : s.gen.sound) (h : seekOwner p line s = .ok (s', r)) : s'.gen.sound := by
  rcases seekOwner_cases h with rfl | ⟨-, rfl⟩
  · exact hs
  · have hopened : (s.openStream p line).grant.gen = ((s.abandonBoth p).rebind p (some s.gen.current)).gen := by
      simp [State.openStream_eq, State.unseated]
    rw [hopened]
    exact GenControl.sound.rebind (by simpa using hs) (by simp [eq_comm])

/-- A COMMIT takes its step only while no drain runs (R125). -/
theorem commitOwner_genSound (hs : s.gen.sound) (h : commitOwner p s = .ok (s', r)) : s'.gen.sound := by
  have hb : (s.restartIdle p).gen.sound := by simpa using hs
  unfold commitOwner commitBody at h
  (repeat' split at h) <;> cases h
  · simpa using hs
  · exact hb
  · exact hb
  · simpa using hb.commitStep (Option.not_isSome_iff_eq_none.mp ‹_›)
  · exact hs

theorem reloadOwner_genSound (hs : s.gen.sound) (h : reloadOwner p s = .ok (s', r)) : s'.gen.sound := by
  unfold reloadOwner at h
  split at h <;> cases h
  · simpa [State.reload] using GenControl.reset_sound
  · exact hs

/-- PORT_RESET unbinds its port (R89, R182). -/
theorem GenControl.sound.portReset (hs : s.gen.sound) (p : Port) : (s.portReset p).gen.sound := by
  have hunbound : (s.portReset p).gen = ((s.closeIdle p).rebind p none).gen := by
    simp [State.portReset, State.resetStreamPart]
  rw [hunbound]
  exact GenControl.sound.rebind (by simpa using hs) (by simp)

theorem execDrainExpiry_genSound (hs : s.gen.sound) (h : execDrainExpiry s = .next t) : t.gen.sound := by
  unfold execDrainExpiry State.drainDue at h
  split at h <;> cases h
  · exact hs
  · rename_i x hdue
    (repeat' split at hdue) <;> cases hdue
    exact hs.expireAll ‹_›

theorem exec_genSound (hs : s.gen.sound) (h : exec c s = .next t) : t.gen.sound := by
  have request : ∀ {p k payload} {owner : State → Answer}, (∀ s' r, owner s = .ok (s', r) → s'.gen.sound) →
      s.pointOfAction p k payload owner = .next t → t.gen.sound := fun ho =>
    State.pointOfAction_keeps (law := fun t => t.gen.sound) hs (fun u r hu => by simpa using hu) (fun _ _ => ho)
  cases c with
  | seek p line => exact request (fun _ _ => seekOwner_genSound hs) h
  | commit p => exact request (fun _ _ => commitOwner_genSound hs) h
  | reload p => exact request (fun _ _ => reloadOwner_genSound hs) h
  | portReset p =>
    refine request (owner := portResetOwner p) (fun s' r ho => ?_) h
    cases ho
    exact hs.portReset p
  | deviceReset => cases h; exact GenControl.reset_sound
  | timebaseTick => cases h; exact hs.tick
  | drainExpiry => exact execDrainExpiry_genSound hs h
  | _ => exact exec_of_leavesGenerations rfl h ▸ hs

end

/-! ### What each effect does to the entries -/

section
variable {s t : State}

/-- The laws of the entries speak of the table and S only. -/
theorem State.entriesDated.of_same (h : s.entriesDated) (htable : t.table = s.table)
    (hsup : t.gen.superseded = s.gen.superseded) : t.entriesDated := by
  unfold State.entriesDated
  rw [htable, hsup]
  exact h

theorem State.entriesDated.of_agrees (h : s.entriesDated) (ha : s.Agrees t) : t.entriesDated :=
  h.of_same ha.table ha.superseded

/-- One slot's entry replaced by one that keeps the laws. -/
theorem State.entriesDated.of_set (h : s.entriesDated) {slot : Nat} {e : Entry} (hgen : t.gen = s.gen)
    (htable : t.table = s.table.set slot e) (he : e.dated s.gen.superseded) : t.entriesDated := by
  intro e' he'
  rw [htable] at he'
  rw [hgen]
  rcases List.mem_or_eq_of_mem_set he' with hold | rfl
  · exact h e' hold
  · exact he

/-- A change of every entry that keeps the laws, under the S then. -/
theorem State.entriesDated.of_map (h : s.entriesDated) {f : Entry → Entry} (htable : t.table = s.table.map f)
    (hf : ∀ e : Entry, e.dated s.gen.superseded → (f e).dated t.gen.superseded) : t.entriesDated := by
  intro e he
  rw [htable] at he
  obtain ⟨e', hmem, rfl⟩ := List.mem_map.mp he
  exact hf e' (h e' hmem)

/-- The end of a drain frees what is RETIRING, so that S may go (R90, R99). -/
theorem State.entriesDated.drainEnd (h : s.entriesDated) : s.drainEnd.entriesDated := by
  refine h.of_map rfl fun e he => ?_
  cases e with
  | free | staged | retiring => trivial
  | live f born mark => exact he

theorem State.entriesDated.rebind (h : s.entriesDated) (p : Port) (b : Option Nat) : (s.rebind p b).entriesDated := by
  rcases s.rebind_cases p b with ⟨hr, -⟩ | ⟨g, -, -, -, hr⟩ <;> rw [hr]
  · exact h.of_same rfl rfl
  · exact State.entriesDated.drainEnd (h.of_same rfl rfl)

/-- A release frees STAGED entries and clears marks (R112). -/
theorem State.entriesDated.release (h : s.entriesDated) : s.release.entriesDated := by
  rw [State.release_effect]
  refine h.of_map rfl fun e he => ?_
  cases e with
  | free | staged => trivial
  | live f born mark => exact he
  | retiring f born => exact he

theorem State.entriesDated.resetSessionPart (h : s.entriesDated) (p : Port) : (s.resetSessionPart p).entriesDated := by
  unfold State.resetSessionPart
  split
  · exact h.release
  · split
    · exact h.of_same rfl rfl
    · exact h

/-- A commit step dates entries N or C, and retires them exactly when S comes to exist (R11, R12, R92). -/
theorem Entry.dated.commit {e : Entry} {c n : Nat} {bound : Bool} {sup : Option Nat} (h : e.dated none)
    (hc : isGeneration c) (hn : isGeneration n) (hsup : bound = true → sup ≠ none) : (e.commit c n bound).dated sup := by
  cases e with
  | free => trivial
  | staged f fillMap => exact hn
  | live f born mark =>
    have hborn : isGeneration (if born = n then c else born) := by
      split
      · exact hc
      · exact h
    cases mark with
    | false => exact hborn
    | true =>
      cases bound with
      | false => trivial
      | true => exact ⟨hborn, hsup rfl⟩
  | retiring f born => exact absurd rfl h.2

theorem State.entriesDated.commitStep (h : s.entriesDated) (hc : isGeneration s.gen.current)
    (hsup : s.gen.superseded = none) : s.commitStep.entriesDated := by
  refine h.of_map s.commitStep_table fun e he => ?_
  rw [hsup] at he
  refine he.commit hc (isGeneration_nextGeneration hc) fun hbound => ?_
  simp [State.commitStep_gen, hbound]

/-- Every effect of a command keeps the laws of the entries. -/
theorem Effect.entriesDated {c : Instr} {u : State} (he : Effect c s u) (hc : isGeneration s.gen.current)
    (h : s.entriesDated) : u.entriesDated := by
  cases he with
  | unchanged => exact h
  | bind b hb p => exact (h.of_agrees hb).rebind p _
  | portReset b hb p => exact ((h.of_agrees hb).rebind p none).resetSessionPart p
  | drainExpiry g hsup =>
    exact State.entriesDated.drainEnd (h.of_same (by simp) (by simp [State.expirePort_generations]))
  | openSession b hb p hnone => exact (h.of_agrees hb).of_same (by simp) (by simp)
  | enqueue b hb p hopen howner hqueue => exact (h.of_agrees hb).of_same rfl rfl
  | stage b hb p slot f howner horigin hroom hfree hclear => exact (h.of_agrees hb).of_set (by simp) rfl trivial
  | fill b hb slot index data f fillMap hentry hindex hdata => exact (h.of_agrees hb).of_set rfl rfl trivial
  | discard b hb slot f fillMap hentry => exact (h.of_agrees hb).of_set (by simp) rfl trivial
  | mark b hb p slot f born howner hentry hroom =>
    have hb' := h.of_agrees hb
    have hmem : entryAt b.table slot ∈ b.table := entryAt_mem (lt_length_of_entryAt_ne (by simp [hentry]))
    have hborn : (Entry.live f born false).dated b.gen.superseded := hentry ▸ hb' _ hmem
    exact hb'.of_set rfl rfl hborn
  | endEmpty b hb hops => exact (h.of_agrees hb).of_same (by simp) (by simp)
  | commit b hb hsup =>
    exact ((h.of_agrees hb).commitStep (hb.current ▸ hc) hsup).of_same (by simp) (by simp)
  | release b hb => exact (h.of_agrees hb).release
  | leave p => exact h.of_same rfl rfl
  | restart u hcause htable hgen hedit =>
    intro e hmem
    rw [htable] at hmem
    rw [List.eq_of_mem_replicate hmem]
    trivial
  | content b hb d chosen i line hstep hline => exact (h.of_agrees hb).of_same rfl rfl
  | place b hb d chosen i slot line hstep hline hfree =>
    have hone : isGeneration 1 := ⟨le_refl _, by decide⟩
    exact (h.of_agrees hb).of_set rfl rfl hone

end

/-- Settles O52: each command keeps the laws of generation control, and each effect of a command keeps those of the entries. -/
theorem stepKeepsGenerations : Obligations.StepKeepsGenerations := by
  intro s t hgen hstep
  rcases step_cases hstep with ⟨-, rfl⟩ | ⟨c, rest, -, hexec⟩
  · exact hgen
  · obtain ⟨hcontrol, hentries⟩ := State.generationsSound_iff.mp (hgen.putPending rest)
    obtain ⟨u, he, ha⟩ := exec_hasEffect hexec
    exact State.generationsSound_iff.mpr
      ⟨exec_genSound hcontrol hexec, (he.entriesDated hcontrol.current hentries).of_agrees ha⟩

/-! ## A SEEK and the end of the drain (R88, R99) -/

/-- What the end of a drain makes of an entry, as the statements say it (R99). -/
theorem Entry.afterDrain_eq (e : Entry) : (if e.isRetiring then .free else e) = e.afterDrain := by
  cases e <;> rfl

section
variable {s : State} {p : Port}

/-- A port bound to C, as a SEEK binds it, ends the drain when it was the last of S (R50 step 2, R88, R99). -/
theorem State.unseated_of_last (hgen : s.generationsSound) (h : s.lastOnSuperseded p) :
    (s.unseated p).gen.superseded = none ∧ (s.unseated p).gen.drainTimer = none ∧
      (s.unseated p).table = s.table.map Entry.afterDrain ∧
      (s.unseated p).store.freeList = insertExtents (extentsWhere Entry.isRetiring s.table) s.store.freeList := by
  have hend := State.rebind_of_last (s := s.abandonBoth p) (b := some s.gen.current) hgen.current_ne h
  simp [State.unseated, hend, State.drainEnd_effect, Entry.afterDrain_eq]

/-- Another port changes its binding alone (R50 step 2, R88). -/
theorem State.unseated_of_not_last (hgen : s.generationsSound) (h : ¬ s.lastOnSuperseded p) :
    (s.unseated p).gen.superseded = s.gen.superseded ∧ (s.unseated p).gen.drainTimer = s.gen.drainTimer ∧
      (s.unseated p).table = s.table ∧ (s.unseated p).store = s.store := by
  have hstays := State.rebind_of_not_last (s := s.abandonBoth p) (b := some s.gen.current) hgen.current_ne h
  simp [State.unseated, hstays]

end

/-- Settles O12: a SEEK binds its port to C, which is not S, so the drain ends exactly when the port was the last of S. -/
theorem seekOfLastPortEndsDrain : Obligations.SeekOfLastPortEndsDrain := by
  intro p line s harr hready hline htable hgen
  refine ⟨_, exec_seek_owner harr hready ((if_neg (Nat.not_le.mpr hline)).trans (if_neg (by simp [htable]))),
    fun hlast => ?_, fun hlast => ?_⟩
  · obtain ⟨hsup, htimer, hentries, hfree⟩ := State.unseated_of_last hgen hlast
    simp only [State.openStream_eq, State.respond_frame, State.grant_frame, State.withPort_frame]
    exact ⟨hsup, htimer, hentries, hfree, hfree ▸ freeTotal_insertExtents _ _⟩
  · simpa [State.openStream_eq] using State.unseated_of_not_last hgen hlast

/-! ## The notices of a COMMIT (R95, R113, R157) -/

section
variable {tbl : List Entry} {n : Nat} {q : Port} {v : Settings}

/-- No clipped range, no COMMITTED notice (R95). -/
theorem committedNotice_of_nil (h : changedRanges tbl q v = []) : committedNotice tbl n q v = none := by
  simp [committedNotice, h]

/-- The COMMITTED notice spans the clipped ranges from the lowest first to the highest last line (R95). -/
theorem committedNotice_of_ne_nil (h : changedRanges tbl q v ≠ []) :
    ∃ first last, first ∈ (changedRanges tbl q v).map Prod.fst ∧ last ∈ (changedRanges tbl q v).map Prod.snd ∧
      (∀ r ∈ changedRanges tbl q v, first ≤ r.1 ∧ r.2 ≤ last) ∧
      committedNotice tbl n q v = some (.committed n first last) := by
  obtain ⟨first, hfirst⟩ : ∃ first, ((changedRanges tbl q v).map Prod.fst).min? = some first :=
    Option.ne_none_iff_exists'.mp (by simpa [List.min?_eq_none_iff] using h)
  obtain ⟨last, hlast⟩ : ∃ last, ((changedRanges tbl q v).map Prod.snd).max? = some last :=
    Option.ne_none_iff_exists'.mp (by simpa [List.max?_eq_none_iff] using h)
  obtain ⟨hfirstMem, hlow⟩ := List.min?_eq_some_iff.mp hfirst
  obtain ⟨hlastMem, hhigh⟩ := List.max?_eq_some_iff.mp hlast
  exact ⟨first, last, hfirstMem, hlastMem,
    fun r hr => ⟨hlow _ (List.mem_map_of_mem hr), hhigh _ (List.mem_map_of_mem hr)⟩,
    by simp [committedNotice, hfirst, hlast]⟩

/-- A commit step hands each port its COMMITTED notice, if any, worked out over the table before it (R95, R96). -/
theorem State.commitStep_notices (s : State) (q : Port) : s.commitStep.notices.get q =
    (committedNotice s.table (nextGeneration s.gen.current) q (s.streams.get q).settings).elim (s.notices.get q)
      (s.notices.get q).given := by
  unfold State.commitStep
  dsimp only
  rw [State.handCommitted_get]
  cases hnotice : committedNotice s.table (nextGeneration s.gen.current) q (s.streams.get q).settings <;>
    cases s.currentIsBound <;> simp [hnotice]

/-- The handover after a commit step gives the new owner SESSION_GRANTED with N (R113, R127). -/
theorem State.commitStep_endSession_notices (s : State) (q : Port) : s.commitStep.endSession.notices.get q =
    if s.edit.claimQueue.head? = some q then
      (s.commitStep.notices.get q).given (.sessionGranted s.commitStep.gen.current)
    else s.commitStep.notices.get q := by
  rw [State.endSession_effect]
  simp [grantedTo]

end

/-- Settles O36: the commit step hands out the COMMITTED notices, and the handover that follows it SESSION_GRANTED. -/
theorem commitNotifiesPorts : Obligations.CommitNotifiesPorts := by
  intro p q s ses harr hready hses ho hinside hops hsup hpass
  have hops' : (s.restartIdle p).ops = ses.ops := (s.restartIdle_agrees p).ops.trans (State.ops_of_session hses)
  have hqueue := (s.restartIdle_agrees p).queue
  have hbody := commitBody_of_pass (s := s.restartIdle p) (by rwa [hops']) (by simpa using hsup)
    (by simpa [hops'] using hpass)
  refine ⟨_, exec_commit_owner harr hready hses ho hinside hbody, (s.restartIdle p).commitStep.notices.get q, ?_, ?_⟩
  · have hcurrent : (s.restartIdle p).commitStep.gen.current = nextGeneration s.gen.current := by
      rw [State.commitStep_gen]
      split <;> simp
    have hunit := (s.restartIdle p).commitStep_notices q
    simp only [State.restartIdle_frame] at hunit
    by_cases hranges : changedRanges s.table q (s.streams.get q).settings = []
    · rw [committedNotice_of_nil hranges] at hunit
      exact .inl ⟨hranges, hunit⟩
    · obtain ⟨first, last, hfirst, hlast, hspan, hnotice⟩ := committedNotice_of_ne_nil hranges
      rw [hnotice] at hunit
      exact .inr ⟨first, last, hfirst, hlast, hspan, by simpa [hcurrent] using hunit⟩
  · simpa [hqueue] using (s.restartIdle p).commitStep_endSession_notices q

/-! ## The tick (R98, R115) -/

/-- A timer short of its limit takes a tick (R98, R115). -/
theorem Timer.tick_of_lt {d : Timer} (h : d.elapsed < d.limit * 10) : d.tick = ⟨d.elapsed + 1, d.limit⟩ := by
  have hdue : d.due = false := by simpa [Timer.due, Config.ticksPerUnit] using h
  simp [Timer.tick, hdue]

/-- Settles O41: each of the two timers that runs is short of its limit, and takes the tick. -/
theorem tickAdvancesRunningTimers : Obligations.TickAdvancesRunningTimers := by
  intro s hdrain hidle
  have htimer : s.gen.drainTimer.map Timer.tick = s.gen.drainTimer.map (fun d => ⟨d.elapsed + 1, d.limit⟩) :=
    Option.map_congr fun d hd => Timer.tick_of_lt (hdrain d hd)
  have hsession : s.edit.session.map (fun ses => { ses with idleTimer := ses.idleTimer.tick })
      = s.edit.session.map (fun ses =>
          { ses with idleTimer := ⟨ses.idleTimer.elapsed + 1, ses.idleTimer.limit⟩ }) :=
    Option.map_congr fun ses hses => by rw [Timer.tick_of_lt (hidle ses hses)]
  change execTimebaseTick s = _
  unfold execTimebaseTick
  rw [htimer, hsession]
  rfl

end Sys2Proof.Machine

/-! # Edit sessions: the requests to the edit controller and the session expiry (file 06) -/

namespace Sys2Proof.Machine

/-! ## A request at the edit controller -/

section
variable {s s' : State} {p : Port} {ses : Session} {r : Response}

/-- What a refusal of the owner's request leaves: its idle timer restarted and the response formed (R115, R171). -/
theorem State.restartIdle_respond (hses : s.edit.session = some ses) (ho : ses.owner = p) (r : Response) :
    (s.restartIdle p).respond p r = { s with
      edit := { s.edit with session := some { ses with idleTimer := { ses.idleTimer with elapsed := 0 } } }
      links := s.linksAnswering p r } := by
  rw [State.restartIdle_owner hses ho]
  rfl

/-- The op list is the session's after a timer restart too (R115). -/
theorem State.restartIdle_ops (hses : s.edit.session = some ses) : (s.restartIdle p).ops = ses.ops :=
  (s.restartIdle_agrees p).ops.trans (State.ops_of_session hses)

/-- A CLAIM takes the answer of its body (R110, R115). -/
theorem exec_claim {wait : Byte} (harr : s.arrived p .claim [wait]) (hready : s.loader.ready = true)
    (hbody : claimBody p wait.toNat (s.restartIdle p) = (s', r)) :
    exec (.claim p wait) s = .next (s'.respond p r) :=
  State.pointOfAction_ok (owner := claimOwner p wait.toNat) harr (.inl hready) (congrArg Except.ok hbody)

/-- An ADD from the owner takes the answer of its body (R115, R118). -/
theorem exec_add_owner {tag sum : BitVec 16} {line : BitVec 24} {length scope : Byte}
    (harr : s.arrived p .add (addPayload tag line length scope sum)) (hready : s.loader.ready = true)
    (howner : s.isOwner p = true)
    (hbody : addBody p tag line.toNat length.toNat scope sum (s.restartIdle p) = (s', r)) :
    exec (.add p tag line length scope sum) s = .next (s'.respond p r) :=
  State.pointOfAction_ok harr (.inl hready) ((if_pos howner).trans (congrArg Except.ok hbody))

/-- A FILL from the owner takes the answer of its body (R115, R120). -/
theorem exec_fill_owner {slot index : Byte} {data : List Byte} (harr : s.arrived p .fill (fillPayload slot index data))
    (hready : s.loader.ready = true) (howner : s.isOwner p = true) (hinside : tableInStore s.table = true)
    (hbody : fillBody slot.toNat index.toNat data (s.restartIdle p) = (s', r)) :
    exec (.fill p slot index data) s = .next (s'.respond p r) :=
  State.pointOfAction_ok harr (.inl hready)
    ((if_pos howner).trans ((if_neg (by simp [hinside])).trans (congrArg Except.ok hbody)))

/-- A REMOVE from the owner takes the answer of its body (R115, R121). -/
theorem exec_remove_owner {slot : Byte} (harr : s.arrived p .remove [slot]) (hready : s.loader.ready = true)
    (howner : s.isOwner p = true) (hbody : removeBody slot.toNat (s.restartIdle p) = (s', r)) :
    exec (.remove p slot) s = .next (s'.respond p r) :=
  State.pointOfAction_ok harr (.inl hready) ((if_pos howner).trans (congrArg Except.ok hbody))

/-- An ABORT takes its owner's answer (R128, R129). -/
theorem exec_abort (harr : s.arrived p .abort []) (hready : s.loader.ready = true)
    (hanswer : abortOwner p s = .ok (s', r)) : exec (.abort p) s = .next (s'.respond p r) :=
  State.pointOfAction_ok harr (.inl hready) hanswer

end

/-! ## Edits from a port that is not the owner (R107, R115) -/

/-- Settles O25: each of the five asks for the owner first, and NOT_OWNER is all it answers another port. -/
theorem editFromNonOwnerIsRefused : Obligations.EditFromNonOwnerIsRefused := by
  intro c p k payload s hreq harr hready hkind hother
  have hnot : ¬ s.isOwner p = true := by simp [State.isOwner_eq_false.mpr hother]
  have hrefuses : ∀ owner : State → Answer, owner s = .ok (s, bare .notOwner) →
      s.pointOfAction p k payload owner =
        .next { s with links := s.links.set p { s.links.get p with phase := .response [0x32, 0xCE] } } :=
    fun _ ho => State.pointOfAction_ok harr (.inl hready) ho
  cases c with
  | add | fill | remove | commit | reload =>
    cases hreq
    exact hrefuses _ (if_neg hnot)
  | _ => cases hreq <;> simp at hkind

/-! ## CLAIM (R110, R111) -/

/-- The place of a port in the claim queue (R111). -/
theorem placeInQueue_append {before after : List Port} {p : Port} (h : p ∉ before) :
    placeInQueue (before ++ p :: after) p = before.length + 1 := by
  simp [placeInQueue, List.idxOf_append_of_notMem h]

section
variable {p : Port} {wait : Nat} {s : State}

/-- A wait flag above 1 is refused first (R110 step 1). -/
theorem claimBody_of_bad_wait (h : 1 < wait) : claimBody p wait s = (s, bare .badArg) := if_pos h

/-- While no session is open a CLAIM opens one (R110). -/
theorem claimBody_of_none (hwait : wait ≤ 1) (hnone : s.edit.session = none) :
    claimBody p wait s = (s.openSession p, ⟨.ok, field2 s.gen.current⟩) :=
  (if_neg (Nat.not_lt.mpr hwait)).trans (if_pos hnone)

/-- The owner of the session owns it already (R110). -/
theorem claimBody_of_owner (hwait : wait ≤ 1) (howner : s.isOwner p = true) :
    claimBody p wait s = (s, bare .alreadyOwner) := by
  obtain ⟨ses, hses, -⟩ := State.isOwner_iff.mp howner
  exact (if_neg (Nat.not_lt.mpr hwait)).trans ((if_neg (by simp [hses])).trans (if_pos howner))

/-- While another port owns the session the wait flag decides between BUSY and the queue (R110, R111). -/
theorem claimBody_of_other {ses : Session} (hwait : wait ≤ 1) (hses : s.edit.session = some ses)
    (hnot : s.isOwner p = false) : claimBody p wait s =
      if wait = 0 then (s, bare .busy)
      else if p ∈ s.edit.claimQueue then (s, ⟨.alreadyWaiting, field1 (placeInQueue s.edit.claimQueue p)⟩)
      else (s.putEdit { s.edit with claimQueue := s.edit.claimQueue ++ [p] },
        ⟨.queued, field1 (s.edit.claimQueue.length + 1)⟩) :=
  (if_neg (Nat.not_lt.mpr hwait)).trans ((if_neg (by simp [hses])).trans (if_neg (by simp [hnot])))

end

/-- Settles O26, by who owns the session; only the owner's CLAIM restarts the idle timer. -/
theorem claimOpensOrQueues : Obligations.ClaimOpensOrQueues := by
  intro p wait s harr hready
  have hexec : s.isOwner p = false → ∀ {s' r}, claimBody p wait.toNat s = (s', r) →
      exec (.claim p wait) s = .next (s'.respond p r) :=
    fun hnot _ _ hbody => exec_claim harr hready ((State.restartIdle_other hnot).symm ▸ hbody)
  refine ⟨fun hnone hbad => ?_, fun hnone hwait => ?_, fun ses hses ho => ?_, fun ses hses ho => ?_⟩
  · exact hexec (State.isOwner_eq_false.mpr (by simp [hnone])) (claimBody_of_bad_wait hbad)
  · exact hexec (State.isOwner_eq_false.mpr (by simp [hnone])) (claimBody_of_none hwait hnone)
  · have hnot : s.isOwner p = false := State.isOwner_eq_false.mpr (by simp [hses, ho])
    refine ⟨fun hbad => hexec hnot (claimBody_of_bad_wait hbad), ?_, ?_, ?_⟩
    · rintro rfl
      exact hexec hnot ((claimBody_of_other (by decide) hses hnot).trans (if_pos rfl))
    · rintro before after rfl hqueue hbefore
      refine (hexec hnot ((claimBody_of_other (by decide) hses hnot).trans
        ((if_neg (by decide)).trans (if_pos (by simp [hqueue]))))).trans ?_
      rw [hqueue, placeInQueue_append hbefore]
      rfl
    · rintro rfl hqueue
      exact hexec hnot ((claimBody_of_other (by decide) hses hnot).trans ((if_neg (by decide)).trans (if_neg hqueue)))
  · have howner : (s.restartIdle p).isOwner p = true :=
      ((s.restartIdle_agrees p).isOwner p).trans (State.isOwner_iff.mpr ⟨ses, hses, ho⟩)
    rw [← State.restartIdle_respond hses ho]
    refine exec_claim harr hready ?_
    split
    · exact claimBody_of_bad_wait ‹_›
    · exact claimBody_of_owner (Nat.not_lt.mp ‹_›) howner

/-! ## The refusals of an ADD (R118) -/

/-- The values an ADD is refused for (R118 step 2). -/
theorem addBadArg_iff {line : BitVec 24} {length scope : Byte} :
    addBadArg line.toNat length.toNat scope.toNat = true ↔ length = 0 ∨ 64 < length.toNat ∨ 524288 ≤ line.toNat ∨
      524288 < line.toNat + length.toNat ∨ scope = 0 ∨ 16 ≤ scope.toNat := by
  simp [addBadArg, Config.maxLength, Config.physicalLines, BitVec.toNat_eq, or_assoc]

/-- Slot choice finds none exactly when no slot is FREE (R20). -/
theorem lowestFree_eq_none {t : List Entry} : lowestFree t = none ↔ ∀ e ∈ t, e ≠ .free := by
  have hfree : ∀ e : Entry, e.isFree = false ↔ e ≠ .free := fun e => by cases e <;> simp [Entry.isFree]
  simp only [lowestFree, List.findIdx?_eq_none_iff, hfree]

/-- Settles O28, check by check. -/
theorem addRefusalsInOrder : Obligations.AddRefusalsInOrder := by
  intro p tag line length scope sum s ses st harr hready hses ho hst
  rw [← State.restartIdle_respond hses ho]
  refine exec_add_owner harr hready (State.isOwner_iff.mpr ⟨ses, hses, ho⟩) ?_
  unfold addBody
  simp only [State.restartIdle_frame, State.restartIdle_ops hses, addBadArg_iff, Config.maxOps]
  rcases hst with ⟨hbad, rfl⟩ | ⟨hgood, hfull, rfl⟩ | ⟨hgood, hroom, hmeets, rfl⟩ |
    ⟨hgood, hroom, hclear, htaken, rfl⟩ | ⟨hgood, hroom, hclear, hslot, hsmall, rfl⟩
  · rw [if_pos hbad]; rfl
  · rw [if_neg hgood, if_pos hfull]; rfl
  · rw [if_neg hgood, if_neg hroom, if_pos hmeets]; rfl
  · rw [if_neg hgood, if_neg hroom, if_neg hclear, lowestFree_eq_none.mpr htaken]; rfl
  · obtain ⟨slot, hlow⟩ := Option.ne_none_iff_exists'.mp (mt lowestFree_eq_none.mp hslot)
    rw [if_neg hgood, if_neg hroom, if_neg hclear, hlow, firstFit_eq_none.mpr hsmall]; rfl

/-! ## FILL (R120) -/

/-- The members of a fill map with an index added (R7). -/
theorem mem_addIndex {i j : Nat} {m : List Nat} : j ∈ addIndex i m ↔ j = i ∨ j ∈ m := by
  induction m with
  | nil => simp [addIndex]
  | cons k ks ih =>
    unfold addIndex
    split
    · simp
    · split
      · subst_vars; simp
      · simp [ih, or_left_comm]

/-- A fill map stays ascending (R7). -/
theorem addIndex_pairwise {i : Nat} {m : List Nat} (h : m.Pairwise (· < ·)) : (addIndex i m).Pairwise (· < ·) := by
  induction m with
  | nil => simp [addIndex]
  | cons k ks ih =>
    have hcons := List.pairwise_cons.mp h
    unfold addIndex
    split
    · exact List.pairwise_cons.mpr ⟨List.forall_mem_cons.mpr ⟨‹_›, fun j hj => Nat.lt_trans ‹_› (hcons.1 j hj)⟩, h⟩
    · split
      · exact h
      · refine List.pairwise_cons.mpr ⟨fun j hj => ?_, ih hcons.2⟩
        rcases mem_addIndex.mp hj with rfl | hj
        · omega
        · exact hcons.1 j hj

section
variable {s : State} {slot index : Nat} {data : List Byte}

/-- A FILL of a slot past the table is refused (R120 step 2). -/
theorem fillBody_of_bad_slot (hslot : 64 ≤ slot) : fillBody slot index data s = (s, bare .badArg) := if_pos hslot

/-- A FILL of a slot that is not STAGED is refused (R120 step 3). -/
theorem fillBody_of_not_staged (hslot : slot < 64) (h : (entryAt s.table slot).isStaged = false) :
    fillBody slot index data s = (s, bare .notStaged) := by
  refine (if_neg (Nat.not_le.mpr hslot)).trans ?_
  cases hentry : entryAt s.table slot with
  | staged f m => simp [hentry, Entry.isStaged] at h
  | _ => rfl

/-- A FILL of a STAGED slot writes unless the index is past the entry (R120 steps 4 and 5). -/
theorem fillBody_of_staged {f : EntryFields} {m : List Nat} (hslot : slot < 64) (h : entryAt s.table slot = .staged f m) :
    fillBody slot index data s =
      if f.length ≤ index then (s, bare .badArg)
      else ((s.putTable (s.table.set slot (.staged f (addIndex index m)))).putStore
          (s.store.writeLine (f.storeLine + index) data), ⟨.ok, field1 (addIndex index m).length⟩) := by
  refine (if_neg (Nat.not_le.mpr hslot)).trans ?_
  rw [h]
  rfl

end

/-- Settles O30: the line is written at the entry's store line + index, and every other byte reads as before. -/
theorem fillWritesOneStoreLine : Obligations.FillWritesOneStoreLine := by
  intro p slot index data s ses f m hwf harr hready hses ho hslot hentry hindex hinside
  have hlen : data.length = 32 := by simpa [Instr.wellFormed, Config.lineBytes] using hwf
  have hbody := (fillBody_of_staged (s := s.restartIdle p) (data := data) hslot (by simpa using hentry)).trans
    (if_neg (Nat.not_le.mpr hindex))
  refine ⟨_, addIndex index.toNat m,
    exec_fill_owner harr hready (State.isOwner_iff.mpr ⟨ses, hses, ho⟩) hinside hbody,
    fun j => mem_addIndex, addIndex_pairwise, ?_, fun i hi => ?_, fun n i hi hn => ?_, ?_⟩
  · rw [State.restartIdle_owner hses ho]
    rfl
  · simp [Store.byte_writeLine_same (hlen ▸ hi), hlen, hi]
  · simpa using Store.byte_writeLine_other hn hi hlen.le
  · simp

/-! ## REMOVE (R121 to R123) -/

section
variable {s : State} {slot : Nat}

/-- A REMOVE of a slot past the table is refused (R121). -/
theorem removeBody_of_bad_slot (hslot : 64 ≤ slot) : removeBody slot s = (s, bare .badArg) := if_pos hslot

/-- A REMOVE of a STAGED entry discards it and its ADD op (R121). -/
theorem removeBody_of_staged {f : EntryFields} {m : List Nat} (hslot : slot < 64)
    (h : entryAt s.table slot = .staged f m) :
    removeBody slot s = ((s.freeSlot slot).putOps (s.ops.erase (.add slot)), bare .ok) := by
  refine (if_neg (Nat.not_le.mpr hslot)).trans ?_
  rw [h]

/-- A REMOVE of a LIVE entry marks it unless it is marked or the op list is full (R122, R123). -/
theorem removeBody_of_live {f : EntryFields} {born : Nat} {mark : Bool} (hslot : slot < 64)
    (h : entryAt s.table slot = .live f born mark) : removeBody slot s =
      if mark then (s, bare .alreadyStaged)
      else if 16 ≤ s.ops.length then (s, bare .opsFull)
      else ((s.putTable (s.table.set slot (.live f born true))).putOps (s.ops ++ [.remove slot]), bare .ok) := by
  refine (if_neg (Nat.not_le.mpr hslot)).trans ?_
  rw [h]

/-- A REMOVE of a FREE or RETIRING entry is refused (R123). -/
theorem removeBody_of_not_live (hslot : slot < 64)
    (h : entryAt s.table slot = .free ∨ ∃ f b, entryAt s.table slot = .retiring f b) :
    removeBody slot s = (s, bare .notLive) := by
  refine (if_neg (Nat.not_le.mpr hslot)).trans ?_
  rcases h with h | ⟨f, b, h⟩ <;> rw [h]

end

/-- Settles O32, refusal by refusal; the restart of the timer leaves the table and the op list. -/
theorem slotRefusalsInOrder : Obligations.SlotRefusalsInOrder := by
  intro p slot s ses st hready hses ho hinside
  have howner : s.isOwner p = true := State.isOwner_iff.mpr ⟨ses, hses, ho⟩
  have htable : (s.restartIdle p).table = s.table := by simp
  rw [← State.restartIdle_respond hses ho, ← htable]
  refine ⟨fun index data harr hst => exec_fill_owner harr hready howner hinside ?_,
    fun harr hst => exec_remove_owner harr hready howner ?_⟩
  · rcases hst with ⟨hslot, rfl⟩ | ⟨hslot, hentry, rfl⟩ | ⟨hslot, ⟨f, m, hentry, hindex⟩, rfl⟩
    · exact fillBody_of_bad_slot hslot
    · exact fillBody_of_not_staged hslot hentry
    · exact (fillBody_of_staged hslot hentry).trans (if_pos hindex)
  · rcases hst with ⟨hslot, rfl⟩ | ⟨hslot, hentry, rfl⟩ | ⟨hslot, ⟨f, b, hentry⟩, rfl⟩ |
      ⟨hslot, ⟨f, b, hentry⟩, hfull, rfl⟩
    · exact removeBody_of_bad_slot hslot
    · exact removeBody_of_not_live hslot hentry
    · exact (removeBody_of_live hslot hentry).trans (if_pos rfl)
    · rw [← State.restartIdle_ops (p := p) hses] at hfull
      exact (removeBody_of_live hslot hentry).trans ((if_neg Bool.false_ne_true).trans (if_pos hfull))

/-- Settles O33: a STAGED entry gives its extent back, a LIVE one is marked. -/
theorem removeDiscardsOrMarks : Obligations.RemoveDiscardsOrMarks := by
  rintro p slot s ses harr hready hses rfl hslot
  have howner : s.isOwner ses.owner = true := State.isOwner_iff.mpr ⟨ses, hses, rfl⟩
  refine ⟨fun f m hentry => ⟨_, rfl, freeTotal_insertExtent _ _, ?_⟩, fun f born hentry hroom => ?_⟩
  · refine (exec_remove_owner harr hready howner (removeBody_of_staged hslot (by simpa using hentry))).trans ?_
    rw [State.restartIdle_ops hses, State.restartIdle_owner hses rfl]
    simp only [State.freeSlot, hentry]
    rfl
  · have hbody := (removeBody_of_live (s := s.restartIdle ses.owner) hslot (by simpa using hentry)).trans
      ((if_neg Bool.false_ne_true).trans (if_neg (by rw [State.restartIdle_ops hses]; omega)))
    refine (exec_remove_owner harr hready howner hbody).trans ?_
    rw [State.restartIdle_ops hses, State.restartIdle_owner hses rfl]
    rfl

/-! ## The refusals of a COMMIT (R125, R126) -/

section
variable {s : State} {tbl : List Entry} {st : Store} {slot : Nat} {f : EntryFields} {m : List Nat}

/-- A COMMIT of a nonempty op list while S exists (R125). -/
theorem commitBody_of_draining {g : Nat} (hops : s.ops ≠ []) (hsup : s.gen.superseded = some g) :
    commitBody s = (s, bare .priorDraining) :=
  (if_neg hops).trans (if_pos (by simp [hsup]))

/-- A COMMIT that an ADD op refuses (R126). -/
theorem commitBody_of_refusal {refusal : CommitRefusal} (hops : s.ops ≠ []) (hsup : s.gen.superseded = none)
    (hcheck : checkOps s.table s.store s.ops = some refusal) : commitBody s = (s, refusal.response) := by
  unfold commitBody
  rw [if_neg hops, hsup, hcheck]
  rfl

/-- The first op that fails decides (R126). -/
theorem checkOps_append {before after : List Op} {op : Op} {refusal : CommitRefusal}
    (hbefore : checkOps tbl st before = none) (hop : checkOp tbl st op = some refusal) :
    checkOps tbl st (before ++ op :: after) = some refusal := by
  unfold checkOps at *
  simp [List.findSome?_append, hbefore, hop]

/-- An ADD op whose fill map is not complete (R126). -/
theorem checkOp_of_incomplete (hentry : entryAt tbl slot = .staged f m) (hcount : m.length ≠ f.length) :
    checkOp tbl st (.add slot) = some (.incomplete slot m.length) := by
  simp [checkOp, hentry, fillCount, hcount]

/-- An ADD op whose computed sum differs (R126). -/
theorem checkOp_of_mismatch (hentry : entryAt tbl slot = .staged f m) (hcount : m.length = f.length)
    (hsum : st.contentSum f.storeLine f.length ≠ f.contentSum) :
    checkOp tbl st (.add slot) = some (.sumMismatch slot (st.contentSum f.storeLine f.length)) := by
  simp [checkOp, hentry, fillCount, hcount, hsum]

end

/-- Settles O34: the ADD ops before the failing one pass, so that one decides. -/
theorem commitRefusals : Obligations.CommitRefusals := by
  intro p s ses harr hready hses ho hinside hops
  have hops' : (s.restartIdle p).ops = ses.ops := State.restartIdle_ops hses
  have hnonempty : (s.restartIdle p).ops ≠ [] := by rwa [hops']
  simp only [← State.restartIdle_respond hses ho]
  refine ⟨fun g hsup => exec_commit_owner harr hready hses ho hinside
      (commitBody_of_draining hnonempty (by simpa using hsup)),
    fun hsup before slot after f m hlist hentry hpass => ?_⟩
  have hrefused : ∀ {refusal}, checkOp s.table s.store (.add slot) = some refusal →
      exec (.commit p) s = .next ((s.restartIdle p).respond p refusal.response) := fun hop =>
    exec_commit_owner harr hready hses ho hinside (commitBody_of_refusal hnonempty (by simpa using hsup)
      (by simpa [hops', hlist] using checkOps_append (checkOps_eq_none hpass) hop))
  exact ⟨fun hcount => hrefused (checkOp_of_incomplete hentry hcount),
    fun hcount hsum => hrefused (checkOp_of_mismatch hentry hcount hsum)⟩

/-! ## ABORT (R128, R129) -/

/-- Settles O37, by the part the port has in the session. -/
theorem abortReleasesOrLeaves : Obligations.AbortReleasesOrLeaves := by
  intro p s harr hready
  refine ⟨fun ses hses ho => ⟨_, rfl, freeTotal_insertExtents _ _, ?_⟩, fun hother => ?_⟩
  · rw [exec_abort harr hready (if_pos (State.isOwner_iff.mpr ⟨ses, hses, ho⟩)), State.release_effect]
    rfl
  · have hnot : ¬ s.isOwner p = true := by simp [State.isOwner_eq_false.mpr hother]
    refine ⟨fun before after hqueue hbefore => ?_, fun hqueue => ?_⟩
    · rw [exec_abort harr hready ((if_neg hnot).trans (if_pos (by simp [hqueue]))), State.leaveQueue, hqueue,
        List.erase_append_right _ hbefore, List.erase_cons_head]
      rfl
    · exact exec_abort harr hready ((if_neg hnot).trans (if_neg hqueue))

/-! ## The session expiry (R116) -/

/-- The session expiry, once it is due (R116). -/
theorem exec_sessionExpiry_due {s : State} {ses : Session} (hses : s.edit.session = some ses)
    (hdue : ses.idleTimer.limit * 10 ≤ ses.idleTimer.elapsed) :
    exec .sessionExpiry s = .next (s.hand ses.owner (.sessionExpired s.gen.current)).release := by
  have hdue' : s.sessionDue = some ses.owner := by
    simp [State.sessionDue, hses, Timer.due, Config.ticksPerUnit, hdue]
  change execSessionExpiry s = _
  unfold execSessionExpiry
  rw [hdue']

/-- Settles O43: the owner is not in the claim queue, so the handover's notice goes to another port. -/
theorem sessionExpiryHandsOver : Obligations.SessionExpiryHandsOver := by
  intro s ses hses hdue hclaims
  have hhead : s.edit.claimQueue.head? ≠ some ses.owner := fun h =>
    hclaims.notOwner ses hses (List.mem_of_head? h)
  refine ⟨_, exec_sessionExpiry_due hses hdue, ?_⟩
  rw [State.release_effect, State.hand_effect]
  refine ⟨rfl, rfl, freeTotal_insertExtents _ _, ?_, fun q hq => ?_⟩
  · simp [grantedTo, hhead]
  · simp [grantedTo, hq]

end Sys2Proof.Machine

/-! # Answers without an owner, resets, and the start-up load (files 07 and 09) -/

namespace Sys2Proof.Machine

/-! ## What a link answers without an owner (R168, R170, R174) -/

/-- Every request acts at its point of action, through an owner of its own (R171). -/
theorem exec_eq_pointOfAction {c : Instr} {p : Port} {k : Kind} {payload : List Byte}
    (hreq : requestOf c = some (p, k, payload)) :
    ∃ owner, ∀ s, exec c s = s.pointOfAction p k payload owner := by
  cases c with
  | status => cases hreq; exact ⟨statusOwner p, fun _ => rfl⟩
  | claim q wait => cases hreq; exact ⟨claimOwner p wait.toNat, fun _ => rfl⟩
  | portReset => cases hreq; exact ⟨portResetOwner p, fun _ => rfl⟩
  | seek | next | portSet | tableRead | noticeTake | add | fill | remove | commit | abort | reload =>
    cases hreq
    exact ⟨_, fun _ => rfl⟩
  | _ => cases hreq

/-- The kinds that a load leaves without an answer of their owner (R149, R174). -/
theorem answeredInLoad_eq_false {k : Kind} (hstatus : k ≠ .status) (htable : k ≠ .tableRead)
    (hnotice : k ≠ .noticeTake) (hreset : k ≠ .portReset) : answeredInLoad k = false := by
  cases k <;> first | rfl | contradiction

/-- A response formed on a link that was just replaced (R171). -/
theorem State.putLink_respond (s : State) (p : Port) (l : HostLink) (r : Response) :
    (s.putLink p l).respond p r = { s with links := s.links.set p { l with phase := .response (responseFrame r) } } := by
  simp [State.respond, State.putLink, State.putLinks, HostLink.answer]

/-- Settles O6: the two refused frames, and the load state's refusal before any owner is asked. -/
theorem linkAnswersWithoutAnOwner : Obligations.LinkAnswersWithoutAnOwner := by
  intro p s
  refine ⟨fun hframe => ?_, fun hframe => if_pos hframe,
    fun c k payload hreq harr hload hstatus htable hnotice hreset => ?_⟩
  · have hexec : exec (.badFrame p) s = .next ((s.putLink p (s.links.get p).countError).respond p (bare .badFrame)) :=
      if_pos hframe
    rw [hexec, State.putLink_respond]
    rfl
  · obtain ⟨owner, hexec⟩ := exec_eq_pointOfAction hreq
    rw [hexec, State.pointOfAction_loading harr hload (answeredInLoad_eq_false hstatus htable hnotice hreset)]
    rfl

/-! ## The header read of a load that begins (R67, R81, R136) -/

/-- No line slot of a reset set has a request (R82, R83). -/
theorem Xmc.slotRequest_of_reset {x : Xmc} (hslots : x.slotRequests = Xmc.reset.slotRequests) (p : Port) (k : SlotId) :
    x.slotRequest p k = none := by
  unfold Xmc.slotRequest
  rw [hslots]
  cases p <;> cases k <;> rfl

/-- The loader's request, alone in the set of an idle controller, becomes the read in flight; the turn and the fault record stay
(R67, R68). -/
theorem Xmc.grant_of_loader_alone {x : Xmc} (roles : PerPort SlotId) {line : Nat} (hidle : x.inFlight = none)
    (hslots : x.slotRequests = Xmc.reset.slotRequests) (hr : x.loaderRequest = some ⟨line, 0, 0⟩) :
    x.grant roles = { x with loaderRequest := none, inFlight := some ⟨.loader, line, [], false⟩ } := by
  have honly : ∀ q, q ≠ .loader → x.requestOf q = none := fun q hq => by
    cases q with
    | slot p k => exact Xmc.slotRequest_of_reset hslots p k
    | loader => contradiction
  rw [Xmc.grant_of_only (q := .loader) roles hidle hr honly]
  obtain ⟨slotRequests, loaderRequest, inFlight, pointer, faults, lastFault⟩ := x
  subst hslots
  rfl

/-! ## An accepted RELOAD (R151) -/

section
variable {s : State} {p : Port} {ses : Session}

/-- RELOAD from the owner (R130, R151). -/
theorem exec_reload_owner (harr : s.arrived p .reload []) (hready : s.loader.ready = true)
    (hses : s.edit.session = some ses) (ho : ses.owner = p) :
    exec (.reload p) s = .next (s.reload.grant.respond p (bare .ok)) :=
  State.pointOfAction_ok harr (.inl hready) (if_pos (State.isOwner_iff.mpr ⟨ses, hses, ho⟩))

/-- The controller after RELOAD, before the grant: the loader's request alone, and the read in flight orphaned (R83, R136). -/
theorem State.reload_xmc (s : State) : s.reload.xmc = { s.xmc with
    slotRequests := Xmc.reset.slotRequests
    loaderRequest := some ⟨headerLine s.loader.dirsel, 0, 0⟩
    inFlight := s.xmc.inFlight.map (fun r => { r with orphan := true }) } := rfl

/-- RELOAD while a read is in flight: the header's request waits (R83). -/
theorem State.reload_grant_xmc_of_busy {r : Read} (hbusy : s.xmc.inFlight = some r) :
    s.reload.grant.xmc = { s.xmc with
      slotRequests := Xmc.reset.slotRequests
      loaderRequest := some ⟨headerLine s.loader.dirsel, 0, 0⟩
      inFlight := some { r with orphan := true } } := by
  have hflight : s.reload.xmc.inFlight ≠ none := by simp [State.reload_xmc, hbusy]
  change s.reload.xmc.grant s.reload.roles = _
  rw [Xmc.grant_of_busy _ hflight, State.reload_xmc, hbusy]
  rfl

/-- RELOAD while the controller is idle: the header's read is in flight at once (R83). -/
theorem State.reload_grant_xmc_of_idle (hidle : s.xmc.inFlight = none) :
    s.reload.grant.xmc = { s.xmc with
      slotRequests := Xmc.reset.slotRequests
      loaderRequest := none
      inFlight := some ⟨.loader, headerLine s.loader.dirsel, [], false⟩ } := by
  have hflight : s.reload.xmc.inFlight = none := by simp [State.reload_xmc, hidle]
  exact Xmc.grant_of_loader_alone s.reload.roles hflight rfl rfl

/-- What RELOAD makes of the request set and leaves of the controller, whether or not a read is in flight (R83). -/
theorem State.reload_grant_xmc_frame (s : State) :
    s.reload.grant.xmc.slotRequests = Xmc.reset.slotRequests ∧ s.reload.grant.xmc.faults = s.xmc.faults ∧
      s.reload.grant.xmc.lastFault = s.xmc.lastFault ∧ s.reload.grant.xmc.pointer = s.xmc.pointer := by
  cases hflight : s.xmc.inFlight with
  | none => rw [State.reload_grant_xmc_of_idle hflight]; exact ⟨rfl, rfl, rfl, rfl⟩
  | some r => rw [State.reload_grant_xmc_of_busy hflight]; exact ⟨rfl, rfl, rfl, rfl⟩

end

/-- Settles O38: the blocks take their effect of R151, and the controller grants the header's read if it is idle. -/
theorem reloadStartsALoad : Obligations.ReloadStartsALoad := by
  intro p s ses harr hready hses ho
  obtain ⟨hslots, hfaults, hlast, hpointer⟩ := s.reload_grant_xmc_frame
  refine ⟨_, exec_reload_owner harr hready hses ho, fun q => PerPort.get_tabulate _ q, rfl, rfl, rfl, rfl,
    fun q => PerPort.get_tabulate _ q, rfl, rfl, rfl, rfl, rfl, Xmc.slotRequest_of_reset hslots, fun r hbusy => ?_,
    fun hidle => ?_, hfaults, hlast, hpointer, rfl, rfl⟩
  · rw [(State.respond_frame _ p _).2.1, State.reload_grant_xmc_of_busy hbusy]
    exact ⟨rfl, rfl⟩
  · rw [(State.respond_frame _ p _).2.1, State.reload_grant_xmc_of_idle hidle]
    exact ⟨rfl, rfl⟩

/-! ## The device reset and its end (R153, R188) -/

/-- The same value for each port. -/
theorem PerPort.get_same {α : Type} (x : α) (p : Port) : (⟨x, x, x, x⟩ : PerPort α).get p = x := by
  cases p <;> rfl

/-- The header's byte address is that of the location the straps choose (R134). -/
theorem headerLine_address (straps : BitVec 2) : headerLine straps * 32 = straps.toNat * 0x400000 + 0x3FF000 := by
  revert straps
  decide

/-- The end of a device reset (R188). -/
theorem exec_resetEnd_inReset {s : State} (straps : BitVec 2) (hreset : s.inReset = true) :
    exec (.resetEnd straps) s = .next (s.resetEnd straps) := if_pos hreset

/-- The end of a device reset starts the header read of the location the straps choose (R67, R134, R188). -/
theorem State.resetEnd_effect {s : State} (straps : BitVec 2) (hxmc : s.xmc = Xmc.reset) :
    s.resetEnd straps = { s with
      inReset := false
      loader := { s.loader with dirsel := straps, step := .header }
      xmc := { s.xmc with inFlight := some ⟨.loader, headerLine straps, [], false⟩ } } := by
  have hgrant := Xmc.grant_of_loader_alone (line := headerLine straps)
    (x := { s.xmc with loaderRequest := some ⟨headerLine straps, 0, 0⟩ }) s.roles (by rw [hxmc]) (by rw [hxmc]) rfl
  have hnone : s.xmc.loaderRequest = none := by rw [hxmc]
  change ({ s with
      inReset := false
      loader := { s.loader with dirsel := straps, step := .header }
      xmc := Xmc.grant { s.xmc with loaderRequest := some ⟨headerLine straps, 0, 0⟩ } s.roles } : State) = _
  rw [hgrant, ← hnone]

/-- Settles O40: the reset values block by block, and the header read that RESET_END starts. -/
theorem deviceResetAndItsEnd : Obligations.DeviceResetAndItsEnd := by
  refine ⟨fun s => ⟨_, rfl, fun q => ?_, Xmc.slotRequest_of_reset rfl, rfl, rfl, rfl, rfl, rfl, rfl, rfl, rfl, rfl,
    PerPort.get_same _, fun q => ?_, fun q => ?_, rfl, rfl, PerPort.get_same _, rfl, rfl, rfl, rfl⟩,
    fun straps s hreset hxmc => ⟨headerLine straps, ?_, headerLine_address straps⟩⟩
  · cases q <;> rfl
  · cases q <;> rfl
  · cases q <;> exact ⟨rfl, rfl, rfl⟩
  · rw [exec_resetEnd_inReset straps hreset, State.resetEnd_effect straps hxmc]

end Sys2Proof.Machine

/-! ## The checks of a header line and of a record (R138, R141 to R143) -/

namespace Sys2Proof.Machine

/-! ### Sums and fields -/

/-- The halfword sum of an even number of bytes as a number (00 Conventions). -/
theorem toNat_halfwordSum {bytes : List Byte} {m : Nat} (hlen : bytes.length = 2 * m) : (halfwordSum bytes).toNat =
    ((List.range m).map (fun k => byteAt bytes (2 * k) + 256 * byteAt bytes (2 * k + 1))).sum % 65536 := by
  have hbytes : bytes = (List.range (2 * m)).map (fun i => bytes.getD i 0) :=
    List.ext_getElem (by simp [hlen]) fun i hi _ => by simp [hi]
  rw [halfwordSum, hbytes, halfwordsOf_map_range, ← hbytes, toNat_sum_words, List.map_map]
  simp only [Function.comp_def, Halfword.toNat_ofBytes]
  rfl

/-- The check of a sum (R138, R141). -/
theorem halfwordSum_eq_zero_iff {bytes : List Byte} {m : Nat} (hlen : bytes.length = 2 * m) : halfwordSum bytes = 0 ↔
    ((List.range m).map (fun k => byteAt bytes (2 * k) + 256 * byteAt bytes (2 * k + 1))).sum % 65536 = 0 := by
  rw [← toNat_halfwordSum hlen]
  exact ⟨fun h => by rw [h]; rfl, fun h => BitVec.eq_of_toNat_eq h⟩

/-- A byte is below 256. -/
theorem byteAt_lt (bytes : List Byte) (i : Nat) : byteAt bytes i < 256 := (bytes.getD i 0).isLt

/-- A 2-byte field is below 65536 (00 Conventions). -/
theorem read2_lt (bytes : List Byte) (i : Nat) : read2 bytes i < 65536 := by
  have hlow := byteAt_lt bytes i
  have hhigh := byteAt_lt bytes (i + 1)
  unfold read2
  omega

/-- The ports are numbered 0 to 3. -/
theorem forall_portIndex_iff {P : Nat → Prop} : (∀ p, P (portIndex p)) ↔ ∀ n, n < 4 → P n := by
  refine ⟨fun h n hn => ?_, fun h p => h _ (by cases p <;> decide)⟩
  match n, hn with
  | 0, _ => exact h .hl0
  | 1, _ => exact h .hl1
  | 2, _ => exact h .hl2
  | 3, _ => exact h .hl3

/-! ### The header (R138) -/

section
variable {h : List Byte}

/-- The fields of one port that check 6 lets pass (R138). -/
theorem headerPortOk_iff {p : Port} : headerPortOk h p = true ↔
    byteAt h (8 + portIndex p) + (if byteAt h (12 + portIndex p) = 0 then 256 else byteAt h (12 + portIndex p)) ≤ 256 ∧
      byteAt h (18 + portIndex p) ≤ 3 ∧ byteAt h (22 + portIndex p) ≤ 1 ∧ byteAt h (26 + portIndex p) < 32 := by
  simp [headerPortOk, viewSizeOf, Config.viewUnits, and_assoc]

/-- Check 6 over the four ports (R138). -/
theorem all_headerPortOk_iff : allPorts.all (headerPortOk h) = true ↔ ∀ n, n < 4 →
    byteAt h (8 + n) + (if byteAt h (12 + n) = 0 then 256 else byteAt h (12 + n)) ≤ 256 ∧
      byteAt h (18 + n) ≤ 3 ∧ byteAt h (22 + n) ≤ 1 ∧ byteAt h (26 + n) < 32 := by
  rw [← forall_portIndex_iff, List.all_eq_true]
  exact ⟨fun hall p => headerPortOk_iff.mp (hall p (mem_allPorts p)), fun hall p _ => headerPortOk_iff.mpr (hall p)⟩

/-! One lemma for each check, over the header lines that pass those before it. -/

theorem checkHeader_of_unsigned (hunsigned : h.take 4 ≠ [0x4F, 0x57, 0x44, 0x52]) : checkHeader h = .noSignature :=
  if_pos hunsigned

variable (hsigned : h.take 4 = [0x4F, 0x57, 0x44, 0x52])
include hsigned

theorem checkHeader_of_bad_version (hbad : byteAt h 4 ≠ 1) : checkHeader h = .badVersion := by
  simp [checkHeader, hsigned, hbad]

variable (hversion : byteAt h 4 = 1)
include hversion

theorem checkHeader_of_bad_sum (hbad : halfwordSum h ≠ 0) : checkHeader h = .badHeaderSum := by
  unfold checkHeader
  rw [if_neg (not_not_intro hsigned), if_neg (not_not_intro hversion), if_pos hbad]

variable (hsum : halfwordSum h = 0)
include hsum

theorem checkHeader_of_bad_count (hbad : 64 < byteAt h 5) : checkHeader h = .badCount := by
  simp [checkHeader, hsigned, hversion, hsum, hbad]

variable (hcount : byteAt h 5 ≤ 64)
include hcount

theorem checkHeader_of_bad_port (hbad : ¬ allPorts.all (headerPortOk h) = true) : checkHeader h = .badPortField := by
  simp [checkHeader, hsigned, hversion, hsum, hcount, hbad]

theorem checkHeader_of_pass (hports : allPorts.all (headerPortOk h) = true) : checkHeader h = .ok := by
  simp [checkHeader, hsigned, hversion, hsum, hcount, hports]

end

/-! ### A record (R141 to R143) -/

section
variable {r : List Byte} {t : List Entry} {free : List Extent}

/-- The fields that pass the check of R142. -/
theorem recordFieldsOk_iff : recordFieldsOk r = true ↔
    read4 r 0 < 524288 ∧ read4 r 4 < 524288 ∧ 1 ≤ byteAt r 8 ∧ byteAt r 8 ≤ 64 ∧ read4 r 0 + byteAt r 8 ≤ 524288 ∧
      read4 r 4 + byteAt r 8 ≤ 524288 ∧ byteAt r 9 ≠ 0 ∧ byteAt r 9 < 16 := by
  simp [recordFieldsOk, Config.physicalLines, Config.maxLength, and_assoc, Nat.one_le_iff_ne_zero]

/-! One lemma for each check, over the records that pass those before it. -/

theorem checkRecord_of_bad_sum (hsum : halfwordSum r ≠ 0) : checkRecord t free r = .error .badRecordSum := if_pos hsum

theorem checkRecord_of_bad_field (hsum : halfwordSum r = 0) (hfields : ¬ recordFieldsOk r = true) :
    checkRecord t free r = .error .badField := by
  simp [checkRecord, hsum, hfields]

theorem checkRecord_of_overlap (hsum : halfwordSum r = 0) (hfields : recordFieldsOk r = true)
    (hmeets : overlaps t (read4 r 0) (byteAt r 8) (BitVec.ofNat 4 (byteAt r 9)) = true) :
    checkRecord t free r = .error .overlap := by
  simp [checkRecord, hsum, hfields, readRecord, hmeets]

theorem checkRecord_of_no_space (hsum : halfwordSum r = 0) (hfields : recordFieldsOk r = true)
    (hclear : ¬ overlaps t (read4 r 0) (byteAt r 8) (BitVec.ofNat 4 (byteAt r 9)) = true)
    (hspace : firstFit (byteAt r 8) free = none) : checkRecord t free r = .error .noSpace := by
  simp [checkRecord, hsum, hfields, readRecord, hclear, hspace]

/-- A record that passes its checks, with its chosen store line (R141 to R143). -/
theorem checkRecord_of_pass (hsum : halfwordSum r = 0) (hfields : recordFieldsOk r = true)
    (hclear : ¬ overlaps t (read4 r 0) (byteAt r 8) (BitVec.ofNat 4 (byteAt r 9)) = true) {chosen : Nat}
    (hfit : firstFit (byteAt r 8) free = some chosen) : checkRecord t free r = .ok (readRecord r, chosen) := by
  simp [checkRecord, hsum, hfields, readRecord, hclear, hfit]

end

/-- Settles O44, check by check: each clause names the first check that fails, or that none does. -/
theorem directoryChecksInOrder : Obligations.DirectoryChecksInOrder := by
  constructor
  · intro h hlen signed version summed counted ports
    have hsum : halfwordSum h = 0 ↔ summed := halfwordSum_eq_zero_iff (m := 16) hlen
    have hports : allPorts.all (headerPortOk h) = true ↔ ports := all_headerPortOk_iff
    exact ⟨checkHeader_of_unsigned,
      checkHeader_of_bad_version,
      fun hs hv hm => checkHeader_of_bad_sum hs hv (mt hsum.mp hm),
      fun hs hv hm hc => checkHeader_of_bad_count hs hv (hsum.mpr hm) (Nat.not_le.mp hc),
      fun hs hv hm hc hp => checkHeader_of_bad_port hs hv (hsum.mpr hm) hc (mt hports.mp hp),
      fun hs hv hm hc hp => checkHeader_of_pass hs hv (hsum.mpr hm) hc (hports.mpr hp)⟩
  · intro r t free hlen summed matchLine sourceLine length scope valid meets
    have hsum : halfwordSum r = 0 ↔ summed := halfwordSum_eq_zero_iff (m := 8) hlen
    have hfields : recordFieldsOk r = true ↔ valid := recordFieldsOk_iff
    refine ⟨fun hm => checkRecord_of_bad_sum (mt hsum.mp hm),
      fun hm hv => checkRecord_of_bad_field (hsum.mpr hm) (mt hfields.mp hv),
      fun hm hv hmeets => checkRecord_of_overlap (hsum.mpr hm) (hfields.mpr hv) hmeets,
      fun hm hv hclear hshort => checkRecord_of_no_space (hsum.mpr hm) (hfields.mpr hv) hclear
        (firstFit_eq_none.mpr hshort),
      fun hm hv hclear before x after hlist hbefore hx => ⟨readRecord r, ?_, rfl, rfl, rfl, ?_, ?_, ?_⟩⟩
    · exact checkRecord_of_pass (hsum.mpr hm) (hfields.mpr hv) hclear (hlist ▸ firstFit_append hbefore hx)
    · obtain ⟨-, -, -, -, -, -, -, hscope⟩ := hv
      exact Nat.mod_eq_of_lt hscope
    · exact Nat.mod_eq_of_lt (read2_lt r 10)
    · exact Nat.mod_eq_of_lt (read2_lt r 12)

/-! ## A valid header (R139) -/

section
variable {h : List Byte}

/-- A valid header has the fields of every port in range (R138 check 6). -/
theorem headerPortOk_of_checkHeader (hok : checkHeader h = .ok) (p : Port) : headerPortOk h p = true := by
  have hports : allPorts.all (headerPortOk h) = true := by
    unfold checkHeader at hok
    (repeat' split at hok) <;> simp_all
  exact List.all_eq_true.mp hports p (mem_allPorts p)

/-- The values a valid header gives one port (R139). -/
theorem headerDefaults_port (h : List Byte) (p : Port) : (headerDefaults h).ports.get p = headerPort h p :=
  PerPort.get_tabulate _ p

/-- The mask a valid header gives a port is its mask byte (R138 check 6, R139). -/
theorem toNat_headerPort_mask (hok : checkHeader h = .ok) (p : Port) :
    (headerPort h p).mask.toNat = byteAt h (26 + portIndex p) := by
  obtain ⟨-, -, -, hmask⟩ := headerPortOk_iff.mp (headerPortOk_of_checkHeader hok p)
  exact Nat.mod_eq_of_lt hmask

/-- A valid header that counts no record ends the load (R139, R147, R148). -/
theorem State.acceptHeader_grant_of_none (s : State) (x : Xmc) (hcount : byteAt h 5 = 0)
    (hskipped : s.loader.report.skipped = 0) : ((s.putXmc x).acceptHeader h).grant =
      State.loadEnded { s with loader := { s.loader with recordIndex := 0, recordCount := 0 } } (headerDefaults h)
        { s.loader.report with headerCause := .ok, tag := BitVec.ofNat 16 (read2 h 16), result := .complete }
        (x.grant s.roles) := by
  unfold State.acceptHeader
  rw [State.beginRecord_of_le _ (by simp [hcount]), State.endLoad_eq_loadEnded]
  simp [State.putLoader, State.putXmc, State.loadEnded, State.grant, State.roles, LoadReport.finalResult, hcount, hskipped]

end

/-- Settles O46: the header's values are taken, and record 0 is turned to. -/
theorem validHeaderBeginsRecords : Obligations.ValidHeaderBeginsRecords := by
  intro s r xd h hr hstep hgives hok
  have hstore : s.loaderInStore = true := by simp [State.loaderInStore, hstep]
  have hdata : (s.putXmc s.xmc.clearRead).loaderData h = (s.putXmc s.xmc.clearRead).acceptHeader h := by
    simp [State.loaderData, hstep, hok]
  refine ⟨_, headerDefaults h, _, exec_accessCompletes_loader hr hgives hstore, rfl, fun hcount => ?_,
    fun hcount hskipped => ?_, rfl, rfl, fun q => ?_⟩
  · rw [hdata, State.acceptHeader, State.beginRecord_of_lt _ hcount]
    exact ⟨rfl, Xmc.grant_loader
      (x := { s.xmc with inFlight := none, loaderRequest := some ⟨headerLine s.loader.dirsel + 1, 0, 0⟩ }) s.roles rfl rfl⟩
  · rw [hdata, State.acceptHeader_grant_of_none s _ hcount hskipped]
    rfl
  · rw [headerDefaults_port]
    exact ⟨rfl, rfl, rfl, rfl, toNat_headerPort_mask hok q⟩

/-! ## A record's line (R141 to R146) -/

section
variable {s : State} {line : List Byte}

/-- A record that fails a check is skipped with its cause (R146). -/
theorem State.takeRecord_of_error {cause : SkipCause}
    (hcheck : checkRecord s.table s.store.freeList (recordBytes line s.loader.recordIndex) = .error cause) :
    s.takeRecord line = s.skipRecord cause := by
  unfold State.takeRecord
  rw [hcheck]

/-- A record that passes its checks waits for its first content line (R143, R144). -/
theorem State.takeRecord_of_ok {record : DirRecord} {chosen : Nat}
    (hcheck : checkRecord s.table s.store.freeList (recordBytes line s.loader.recordIndex) = .ok (record, chosen)) :
    s.takeRecord line = s.loaderRead (.copy record chosen 0) record.sourceLine := by
  unfold State.takeRecord
  rw [hcheck]

end

/-- Settles O47, by what the checks make of the record. -/
theorem recordLineIsJudged : Obligations.RecordLineIsJudged := by
  intro s r xd h d hr hstep hgives hpending hheader bytes
  have hstore : s.loaderInStore = true := by simp [State.loaderInStore, hstep]
  have hdata : (s.putXmc s.xmc.clearRead).loaderData h = (s.putXmc s.xmc.clearRead).takeRecord h := by
    simp [State.loaderData, hstep]
  refine ⟨_, exec_accessCompletes_loader hr hgives hstore, fun cause hcheck => ?_, fun record chosen hcheck => ?_⟩
  · rw [hdata, State.takeRecord_of_error (s := s.putXmc s.xmc.clearRead) hcheck]
    exact State.skipRecord_grant s cause rfl hpending hheader
  · rw [hdata, State.takeRecord_of_ok (s := s.putXmc s.xmc.clearRead) hcheck]
    exact ⟨rfl, Xmc.grant_loader
      (x := { s.xmc with inFlight := none, loaderRequest := some ⟨record.sourceLine, 0, 0⟩ }) s.roles rfl rfl⟩

end Sys2Proof.Machine

/-! # Notices and the attention line (file 08) -/

namespace Sys2Proof.Machine

/-! ## NOTICE_TAKE (R158, R181) -/

section
variable {s : State} {p : Port} {n : Notice} {rest : List Notice}

/-- Two bytes of a number, low byte first, read back as the number modulo 65536 (00 Conventions). -/
theorem read2_of_bytes {l : List Byte} {i x : Nat} (hlow : byteAt l i = x % 256)
    (hhigh : byteAt l (i + 1) = x / 256 % 256) : read2 l i = x % 65536 := by
  unfold read2
  omega

/-- Three bytes of a number, low byte first, read back as the number modulo 16777216 (00 Conventions). -/
theorem read3_of_bytes {l : List Byte} {i x : Nat} (hlow : byteAt l i = x % 256)
    (hmiddle : byteAt l (i + 1) = x / 256 % 256) (hhigh : byteAt l (i + 2) = x / 65536 % 256) :
    read3 l i = x % 16777216 := by
  unfold read3
  rw [read2_of_bytes hlow hmiddle]
  omega

/-- The record of every notice has 9 bytes (R181). -/
theorem noticeBytes_length (n : Notice) : (noticeBytes n).length = 9 := by
  cases n <;> rfl

/-- The take of the head: the flag is cleared exactly when no notice remains (R158). -/
theorem NoticeUnit.takeHead_cons {u : NoticeUnit} (h : u.queue = n :: rest) :
    u.takeHead = ⟨rest, (if rest = [] then false else u.overflow), u.mask⟩ := by
  unfold NoticeUnit.takeHead
  rw [h]
  cases rest <;> simp

/-- NOTICE_TAKE on an empty queue (R158). -/
theorem exec_noticeTake_empty (harr : s.arrived p .noticeTake []) (h : (s.notices.get p).queue = []) :
    exec (.noticeTake p) s = .next (s.respond p (bare .empty)) := by
  refine State.pointOfAction_ok (owner := noticeTakeOwner p) harr (.inr rfl) ?_
  simp only [noticeTakeOwner, h]

/-- NOTICE_TAKE on a queue with a head (R158). -/
theorem exec_noticeTake_head (harr : s.arrived p .noticeTake []) (h : (s.notices.get p).queue = n :: rest) :
    exec (.noticeTake p) s = .next ((s.putNotice p (s.notices.get p).takeHead).respond p
      ⟨.ok, noticeBytes n ++ field1 rest.length ++ fieldFlag (s.notices.get p).overflow⟩) := by
  refine State.pointOfAction_ok (owner := noticeTakeOwner p) harr (.inr rfl) ?_
  simp only [noticeTakeOwner, h]

/-- The attention line by the overflow flag and the mask bits of the waiting notices' kinds (R161, R162). -/
theorem State.attention_iff (s : State) (p : Port) : s.attention p = true ↔
    (s.notices.get p).overflow = true ∨
      ∃ n ∈ (s.notices.get p).queue, (s.notices.get p).mask.getLsbD (noticeKind n) = true := by
  simp only [State.attention, NoticeUnit.attention, NoticeUnit.masked, Bool.or_eq_true, List.any_eq_true, or_comm]

end

/-- Settles O24: the owner's answer for an empty queue and for one with a head, the record by kind, and the line's condition. -/
theorem noticeTakeReturnsTheHead : Obligations.NoticeTakeReturnsTheHead := by
  refine ⟨fun p s harr => ⟨fun hempty => exec_noticeTake_empty harr hempty,
    fun n rest hqueue => ⟨noticeBytes n, noticeBytes_length n, ?_, ?_⟩⟩, fun p s => ?_⟩
  · rw [exec_noticeTake_head harr hqueue, NoticeUnit.takeHead_cons hqueue, List.append_assoc]
    rfl
  · cases n with
    | loadDone g result placed skipped =>
      exact ⟨rfl, read2_of_bytes rfl rfl, (by cases result <;> rfl), rfl, rfl, rfl⟩
    | committed g first last =>
      exact ⟨rfl, read2_of_bytes rfl rfl, read3_of_bytes rfl rfl rfl, read3_of_bytes rfl rfl rfl⟩
    | streamStale g counter => exact ⟨rfl, read2_of_bytes rfl rfl, read3_of_bytes rfl rfl rfl, rfl⟩
    | sessionGranted g => exact ⟨rfl, read2_of_bytes rfl rfl, rfl, rfl⟩
    | sessionExpired g => exact ⟨rfl, read2_of_bytes rfl rfl, rfl, rfl⟩
  · rw [State.attention_iff]
    refine or_congr_right (exists_congr fun n => and_congr_right fun _ => ?_)
    cases n <;> rfl

end Sys2Proof.Machine

/-! # Queues, counters, store bytes and the read in flight stay in bounds (R24, R67, R79, R156, R170)

Each bounded block has the laws of its own operations first; then every operation of the machine keeps all of them at once. -/

namespace Sys2Proof.Machine

/-! ## The laws of each block's operations -/

section
variable {u : NoticeUnit} {x y : Xmc}

/-- A notice joins a queue with room, or sets the flag over a full one (R157). -/
theorem NoticeUnit.sound.given (h : u.sound) (n : Notice) : (u.given n).sound := by
  obtain ⟨hroom, -⟩ := h
  unfold NoticeUnit.given
  split
  · rename_i hlt
    exact ⟨by simpa [Config.maxNotices] using hlt, fun _ => by simp⟩
  · rename_i hfull
    exact ⟨hroom, fun _ (hempty : u.queue = []) => hfull (by simp [hempty])⟩

/-- A take leaves the flag set over a queue that is not empty at most (R158). -/
theorem NoticeUnit.sound.takeHead (h : u.sound) : u.takeHead.sound := by
  obtain ⟨hroom, -⟩ := h
  refine ⟨?_, fun hflag hempty => ?_⟩
  · simp only [NoticeUnit.takeHead, List.length_tail]
    omega
  · simp [NoticeUnit.takeHead, show u.queue.tail = [] from hempty] at hflag

/-- The mask is no concern of the queue (R161). -/
theorem NoticeUnit.sound.withMask (h : u.sound) (mask : BitVec 5) :
    (⟨u.queue, u.overflow, mask⟩ : NoticeUnit).sound := h

/-- An empty queue with the flag clear, whatever the mask (R165). -/
theorem NoticeUnit.sound_of_clear (mask : BitVec 5) : (⟨[], false, mask⟩ : NoticeUnit).sound :=
  ⟨Nat.zero_le _, by rintro ⟨⟩⟩

/-- The fault counter is in its bound, and a read in flight has an access to complete (R67, R79). -/
structure Xmc.inBounds (x : Xmc) : Prop where
  faults : x.faults ≤ Config.maxFaults
  short : ∀ r, x.inFlight = some r → r.halfwords.length < Config.accessesPerLine

/-- Requests, the pointer and the last fault's line are no concern of these bounds. -/
theorem Xmc.inBounds.of_same (h : x.inBounds) (hfaults : y.faults = x.faults) (hflight : y.inFlight = x.inFlight) :
    y.inBounds := ⟨hfaults ▸ h.faults, hflight ▸ h.short⟩

/-- A read in flight may be orphaned: its halfwords stay (R76, R83). -/
theorem Xmc.inBounds.of_map (h : x.inBounds) {f : Read → Read} (hf : ∀ r, (f r).halfwords = r.halfwords)
    (hfaults : y.faults = x.faults) (hflight : y.inFlight = x.inFlight.map f) : y.inBounds := by
  refine ⟨hfaults ▸ h.faults, fun r hr => ?_⟩
  obtain ⟨r, hr', rfl⟩ := Option.map_eq_some_iff.mp (hflight ▸ hr)
  rw [hf]
  exact h.short r hr'

/-- A grant starts its read with no access completed (R67). -/
theorem Xmc.inBounds.grant (h : x.inBounds) (roles : PerPort SlotId) : (x.grant roles).inBounds := by
  refine ⟨by simpa using h.faults, fun r hr => ?_⟩
  rcases x.grant_cases roles with ⟨hg, -⟩ | ⟨-, q, request, -, -, hg⟩
  · exact h.short r (hg ▸ hr)
  · rw [hg] at hr
    cases hr
    exact Nat.succ_pos 15

theorem Xmc.inBounds.release (h : x.inBounds) (p : Port) (k : SlotId) : (x.release p k).inBounds :=
  h.of_map (fun r => by split <;> rfl) (by simp) (x.inFlight_release p k)

/-- RELOAD orphans the read in flight (R83). -/
theorem Xmc.inBounds.reload (h : x.inBounds) : x.reload.inBounds :=
  h.of_map (f := fun r => { r with orphan := true }) (fun _ => rfl) rfl rfl

/-- The end of a read leaves the controller idle, a fault counted within its bound (R73, R79). -/
theorem Xmc.inBounds.readEnded (h : x.inBounds) (line : Nat) (fault : Bool) :
    (if fault then x.clearRead.recordFault line else x.clearRead).inBounds := by
  cases fault
  · exact ⟨h.faults, by rintro r ⟨⟩⟩
  · exact ⟨Nat.min_le_left _ _, by rintro r ⟨⟩⟩

end

/-! ### The link error counter (R170) -/

section
variable (l : HostLink)

theorem HostLink.countError_errors_le : l.countError.errors ≤ Config.maxLinkErrors := Nat.min_le_left _ _

theorem HostLink.assertSelect_errors (inReset : Bool) : (l.assertSelect inReset).errors = l.errors := by
  unfold HostLink.assertSelect
  (repeat' split) <;> rfl

theorem HostLink.send_errors : l.send.errors = l.errors := by
  unfold HostLink.send
  split <;> rfl

theorem HostLink.clockByte_errors (b : Byte) : (l.clockByte b).errors = l.errors := by
  unfold HostLink.clockByte
  split
  · rfl
  · exact l.send_errors
  · rfl
  · rfl

/-- A release counts an error in REQUEST only (R166, R169). -/
theorem HostLink.selectReleased_errors_le (h : l.errors ≤ Config.maxLinkErrors) :
    l.selectReleased.errors ≤ Config.maxLinkErrors := by
  unfold HostLink.selectReleased
  split
  · exact l.countError_errors_le
  · exact h
  · exact h
  · exact h

end

/-! ### The store's bytes under the operations that move lines (R13, R26) -/

section
variable (s : State) (p : Port)

@[simp] theorem State.freeSlot_content (slot : Nat) : (s.freeSlot slot).store.content = s.store.content := rfl

theorem State.drainEnd_content : s.drainEnd.store.content = s.store.content := rfl

@[simp] theorem State.rebind_content (b : Option Nat) : (s.rebind p b).store.content = s.store.content := by
  rcases s.rebind_cases p b with ⟨h, -⟩ | ⟨g, -, -, -, h⟩
  · rw [h]
  · rw [h, State.drainEnd_content]
    rfl

@[simp] theorem State.commitStep_content : s.commitStep.store.content = s.store.content := by
  rw [State.commitStep_store]
  split <;> rfl

end

/-! ## Every operation keeps the bounds -/

/-- Every bounded block is in its bounds: the notice queues (R156), the link error counters (R170), the controller, and the
store's bytes (R24, log entry 1). -/
structure State.inBounds (s : State) : Prop where
  notices : s.noticesSound
  errors : ∀ p, (s.links.get p).errors ≤ Config.maxLinkErrors
  xmc : s.xmc.inBounds
  content : Memory.wf s.store.content = true

theorem State.inBounds_iff {s : State} : s.inBounds ↔ s.noticesSound ∧ s.countersSound ∧ s.contentSound :=
  ⟨fun ⟨hnotices, herrors, ⟨hfaults, hshort⟩, hcontent⟩ => ⟨hnotices, ⟨hfaults, herrors⟩, hcontent, hshort⟩,
    fun ⟨hnotices, ⟨hfaults, herrors⟩, hcontent, hshort⟩ => ⟨hnotices, herrors, ⟨hfaults, hshort⟩, hcontent⟩⟩

section
variable {s t : State} {p : Port}

/-- A change of the controller within its bounds, and of blocks that have none. -/
theorem State.inBounds.of_xmc (h : s.inBounds) (hx : t.xmc.inBounds) (hnotices : t.notices = s.notices)
    (hlinks : t.links = s.links) (hcontent : t.store.content = s.store.content) : t.inBounds :=
  ⟨by unfold State.noticesSound; exact hnotices ▸ h.notices, hlinks ▸ h.errors, hx, hcontent ▸ h.content⟩

/-- The notices, the links, the controller and the store's bytes are all that is at stake. -/
theorem State.inBounds.of_same (h : s.inBounds) (hxmc : t.xmc = s.xmc) (hnotices : t.notices = s.notices)
    (hlinks : t.links = s.links) (hcontent : t.store.content = s.store.content) : t.inBounds :=
  h.of_xmc (hxmc ▸ h.xmc) hnotices hlinks hcontent

theorem State.inBounds.putNotice (h : s.inBounds) (p : Port) {u : NoticeUnit} (hu : u.sound) :
    (s.putNotice p u).inBounds := by
  refine ⟨fun q => ?_, h.errors, h.xmc, h.content⟩
  rw [State.putNotice_notices, PerPort.get_set]
  split
  · exact hu
  · exact h.notices q

theorem State.inBounds.putLink (h : s.inBounds) (p : Port) {l : HostLink} (hl : l.errors ≤ Config.maxLinkErrors) :
    (s.putLink p l).inBounds := by
  refine ⟨h.notices, fun q => ?_, h.xmc, h.content⟩
  rw [State.putLink_links, PerPort.get_set]
  split
  · exact hl
  · exact h.errors q

theorem State.inBounds.respond (h : s.inBounds) (p : Port) (r : Response) : (s.respond p r).inBounds :=
  h.putLink p (h.errors p)

theorem State.inBounds.hand (h : s.inBounds) (p : Port) (n : Notice) : (s.hand p n).inBounds :=
  h.putNotice p ((h.notices p).given n)

theorem State.inBounds.grant (h : s.inBounds) : s.grant.inBounds :=
  h.of_xmc (h.xmc.grant s.roles) (by simp) (by simp) (by simp)

/-! The blocks without a bound. -/

theorem State.inBounds.putStream (h : s.inBounds) (p : Port) (u : StreamUnit) : (s.putStream p u).inBounds :=
  h.of_same rfl rfl rfl rfl

theorem State.inBounds.putTable (h : s.inBounds) (tbl : List Entry) : (s.putTable tbl).inBounds :=
  h.of_same rfl rfl rfl rfl

theorem State.inBounds.putGen (h : s.inBounds) (g : GenControl) : (s.putGen g).inBounds := h.of_same rfl rfl rfl rfl

theorem State.inBounds.putEdit (h : s.inBounds) (e : EditControl) : (s.putEdit e).inBounds := h.of_same rfl rfl rfl rfl

theorem State.inBounds.putLoader (h : s.inBounds) (l : Loader) : (s.putLoader l).inBounds := h.of_same rfl rfl rfl rfl

theorem State.inBounds.putInReset (h : s.inBounds) (b : Bool) : (s.putInReset b).inBounds := h.of_same rfl rfl rfl rfl

theorem State.inBounds.putPending (h : s.inBounds) (rest : List Instr) : (s.putPending rest).inBounds :=
  h.of_same rfl rfl rfl rfl

/-! ### Streams -/

/-- A port's slots are filled, promoted and cleared, with their requests (R45, R49, R66). -/
theorem State.inBounds.withPort (h : s.inBounds) (p : Port) (u : StreamUnit) (v : PerSlot (Option Request)) :
    (s.withPort p u v).inBounds := h.of_xmc (h.xmc.of_same rfl rfl) rfl rfl rfl

theorem State.inBounds.fillSlot (h : s.inBounds) (p : Port) (k : SlotId) (n : Nat) : (s.fillSlot p k n).inBounds := by
  rw [State.fillSlot_eq]
  exact h.withPort p _ _

theorem State.inBounds.advance (h : s.inBounds) (p : Port) : (s.advance p).inBounds := by
  obtain ⟨u, v, hadv⟩ := s.exists_advances p
  rw [hadv.eq]
  exact h.withPort p u v

/-- The controller once both slots of a port were abandoned (R75, R76). -/
theorem State.inBounds.abandonBoth_xmc (h : s.inBounds) (p : Port) : (s.abandonBoth p).xmc.inBounds :=
  (h.xmc.release p .a).release p .b

theorem State.inBounds.openStream (h : s.inBounds) (p : Port) (line : Nat) : (s.openStream p line).inBounds := by
  have hunseated : (s.unseated p).inBounds := h.of_xmc (by simpa using h.abandonBoth_xmc p) (by simp) (by simp)
    (by simp [State.unseated])
  rw [State.openStream_eq]
  exact hunseated.withPort p _ _

theorem State.inBounds.resetStreamPart (h : s.inBounds) (p : Port) : (s.resetStreamPart p).inBounds :=
  h.of_xmc (by simpa [State.resetStreamPart, State.closeIdle_xmc] using h.abandonBoth_xmc p) (by simp) (by simp)
    (by simp [State.resetStreamPart])

theorem State.inBounds.expirePort (h : s.inBounds) (g : Nat) (p : Port) : (s.expirePort g p).inBounds := by
  have hclosed : (s.closeStale p).inBounds :=
    h.of_xmc (by simpa [State.closeStale_xmc] using h.abandonBoth_xmc p) (by simp) (by simp) (by simp)
  unfold State.expirePort
  dsimp only
  split
  · exact (hclosed.putGen _).hand p _
  · exact h

theorem State.inBounds.expirePorts (h : s.inBounds) (g : Nat) (ports : List Port) :
    (ports.foldl (fun s p => s.expirePort g p) s).inBounds := by
  induction ports generalizing s with
  | nil => exact h
  | cons p ports ih => exact ih (h.expirePort g p)

/-! ### Sessions -/

theorem State.inBounds.restartIdle (h : s.inBounds) (p : Port) : (s.restartIdle p).inBounds :=
  h.of_same (by simp) (by simp) (by simp) (by simp)

/-- The handover hands SESSION_GRANTED to the new owner at most (R113). -/
theorem State.inBounds.endSession (h : s.inBounds) : s.endSession.inBounds := by
  unfold State.endSession
  split
  · exact h.putEdit _
  · exact State.inBounds.hand ((h.putEdit _).putEdit _) _ _

theorem State.inBounds.release (h : s.inBounds) : s.release.inBounds :=
  State.inBounds.endSession (s := (s.freeEntries Entry.isStaged).putTable _) (h.of_same rfl rfl rfl rfl)

theorem State.inBounds.resetSessionPart (h : s.inBounds) (p : Port) : (s.resetSessionPart p).inBounds := by
  unfold State.resetSessionPart
  split
  · exact h.release
  · split
    · exact h.of_same rfl rfl rfl rfl
    · exact h

/-- The commit step hands each port a COMMITTED notice at most (R95). -/
theorem State.inBounds.commitStep (h : s.inBounds) : s.commitStep.inBounds := by
  refine ⟨fun q => ?_, by simpa using h.errors, by simpa using h.xmc, by simpa using h.content⟩
  rw [State.commitStep_notices]
  cases committedNotice s.table (nextGeneration s.gen.current) q (s.streams.get q).settings with
  | none => exact h.notices q
  | some n => exact (h.notices q).given n

/-! ### The loader -/

theorem State.inBounds.loaderRead (h : s.inBounds) (step : LoaderStep) (line : Nat) :
    (s.loaderRead step line).inBounds := h.of_xmc (h.xmc.of_same rfl rfl) rfl rfl rfl

/-- The end of a load gives each port its mask and hands it LOAD_DONE (R148). -/
theorem State.inBounds.endLoad (h : s.inBounds) : s.endLoad.inBounds := by
  refine ⟨fun q => ?_, by simpa using h.errors, by simpa using h.xmc, by simpa using h.content⟩
  rw [State.endLoad_notices]
  exact ((h.notices q).withMask _).given _

theorem State.inBounds.beginRecord (h : s.inBounds) (i : Nat) : (s.beginRecord i).inBounds := by
  unfold State.beginRecord
  dsimp only
  split
  · exact (h.putLoader _).loaderRead _ _
  · exact (h.putLoader _).endLoad

theorem State.inBounds.skipRecord (h : s.inBounds) (cause : SkipCause) : (s.skipRecord cause).inBounds := by
  rw [State.skipRecord_eq]
  exact (h.putLoader _).beginRecord _

theorem State.inBounds.placeRecord (h : s.inBounds) (d : DirRecord) (chosen : Nat) :
    (s.placeRecord d chosen).inBounds := by
  cases hslot : lowestFree s.table with
  | none =>
    rw [State.placeRecord_of_full hslot]
    exact h.skipRecord _
  | some slot =>
    rw [State.placeRecord_of_free hslot]
    refine State.inBounds.beginRecord (State.inBounds.putLoader ?_ _) _
    exact h.of_same rfl rfl rfl rfl

theorem State.inBounds.failHeader (h : s.inBounds) (cause : HeaderCause) : (s.failHeader cause).inBounds :=
  (h.putLoader _).endLoad

theorem State.inBounds.acceptHeader (h : s.inBounds) (line : List Byte) : (s.acceptHeader line).inBounds :=
  (h.putLoader _).beginRecord 0

theorem State.inBounds.takeRecord (h : s.inBounds) (line : List Byte) : (s.takeRecord line).inBounds := by
  unfold State.takeRecord
  split
  · exact h.skipRecord _
  · exact h.loaderRead _ _

/-- A line is written into a store line that exists (R24, R31, R32). -/
theorem State.inBounds.writeLine (h : s.inBounds) {n : Nat} {data : List Byte} (hn : n < Config.storeLines)
    (hdata : data.length ≤ Config.lineBytes) : (s.putStore (s.store.writeLine n data)).inBounds :=
  ⟨h.notices, h.errors, h.xmc, Store.wf_writeLine h.content hn hdata⟩

theorem State.inBounds.takeContent (h : s.inBounds) {d : DirRecord} {chosen i : Nat} {line : List Byte}
    (hn : chosen + i < Config.storeLines) (hline : line.length ≤ Config.lineBytes) :
    (s.takeContent d chosen i line).inBounds := by
  have hwritten := h.writeLine hn hline
  unfold State.takeContent
  dsimp only
  split
  · exact hwritten.loaderRead _ _
  split
  · exact hwritten.placeRecord d chosen
  · exact hwritten.skipRecord _

/-- The line the loader copies is written inside the store (R28). -/
theorem State.copy_inStore (h : s.loaderInStore = true) {d : DirRecord} {chosen i : Nat}
    (hstep : s.loader.step = .copy d chosen i) : chosen + i < Config.storeLines := by
  simp only [State.loaderInStore, hstep, Bool.and_eq_true, decide_eq_true_eq] at h
  omega

theorem State.inBounds.loaderData (h : s.inBounds) (hstore : s.loaderInStore = true) {line : List Byte}
    (hline : line.length ≤ Config.lineBytes) : (s.loaderData line).inBounds := by
  unfold State.loaderData
  split
  · exact h
  · split
    · exact h.acceptHeader line
    · exact h.failHeader _
  · exact h.takeRecord line
  · exact h.takeContent (State.copy_inStore hstore ‹_›) hline

theorem State.inBounds.loaderFault (h : s.inBounds) : s.loaderFault.inBounds := by
  unfold State.loaderFault
  split
  · exact h
  · exact h.failHeader _
  · exact h.skipRecord _
  · exact h.skipRecord _

/-- The end of a line read: the result is discarded, or goes to a line slot or to the loader (R47, R73, R79). -/
theorem State.inBounds.endRead (h : s.inBounds) {r : Read} {result : Option (List Byte)}
    (hstore : s.endReadOutsideStore r result = false)
    (hline : ∀ line, result = some line → line.length ≤ Config.lineBytes) : (s.endRead r result).inBounds := by
  have hended : (s.putXmc (if result.isNone then s.xmc.clearRead.recordFault r.line else s.xmc.clearRead)).inBounds :=
    h.of_xmc (h.xmc.readEnded r.line result.isNone) rfl rfl rfl
  rw [State.endRead_cases]
  refine State.inBounds.grant ?_
  split
  · exact hended
  rename_i horphan
  split
  · exact hended.of_same rfl rfl rfl rfl
  · rename_i line hloader
    refine hended.loaderData ?_ (hline line rfl)
    change s.loaderInStore = true
    simpa [State.endReadOutsideStore, horphan, hloader] using hstore
  · exact hended.loaderFault

end

/-! ## Every command, and the step -/

section
variable {c : Instr} {s s' t : State} {p : Port} {r : Response}

theorem seekOwner_inBounds {line : Nat} (hs : s.inBounds) (h : seekOwner p line s = .ok (s', r)) : s'.inBounds := by
  rcases seekOwner_cases h with rfl | ⟨-, rfl⟩
  · exact hs
  · exact (hs.openStream p line).grant

theorem nextOwner_inBounds (hs : s.inBounds) (h : nextOwner p s = .ok (s', r)) : s'.inBounds := by
  rcases nextOwner_cases h with rfl | ⟨-, ⟨_, -, rfl⟩ | ⟨b, hb, hnext⟩⟩
  · exact hs
  · exact hs.of_same rfl rfl rfl rfl
  · have hfilled : b.inBounds := by
      rcases hb with rfl | ⟨-, rfl⟩
      · exact hs
      · exact hs.fillSlot p _ _
    rcases hnext with rfl | ⟨rfl, -⟩
    · exact hfilled.grant
    · exact (hfilled.advance p).grant

theorem portSetOwner_inBounds {level prefetch mask base size : Byte} (hs : s.inBounds)
    (h : portSetOwner p level prefetch mask base size s = .ok (s', r)) : s'.inBounds := by
  unfold portSetOwner at h
  (repeat' split at h) <;> cases h
  · exact hs
  · exact hs
  · exact State.inBounds.putNotice (hs.putStream p _) p ((hs.notices p).withMask _)

theorem noticeTakeOwner_inBounds (hs : s.inBounds) (h : noticeTakeOwner p s = .ok (s', r)) : s'.inBounds := by
  unfold noticeTakeOwner at h
  dsimp only at h
  split at h <;> cases h
  · exact hs
  · exact hs.putNotice p (hs.notices p).takeHead

theorem claimOwner_inBounds {wait : Nat} (hs : s.inBounds) (h : claimOwner p wait s = .ok (s', r)) : s'.inBounds := by
  unfold claimOwner claimBody at h
  (repeat' split at h) <;> cases h <;> exact hs.of_same (by simp) (by simp) (by simp) (by simp)

theorem addOwner_inBounds {tag : BitVec 16} {line length : Nat} {scope : Byte} {sum : BitVec 16} (hs : s.inBounds)
    (h : addOwner p tag line length scope sum s = .ok (s', r)) : s'.inBounds := by
  unfold addOwner addBody at h
  (repeat' split at h) <;> cases h <;>
    exact hs.of_same (by simp) (by simp) (by simp) (by simp [State.stage])

/-- The extent of an entry lies inside the store (R2). -/
theorem line_lt_of_tableInStore {tbl : List Entry} (h : tableInStore tbl = true) {slot i : Nat} {f : EntryFields}
    (hfields : (entryAt tbl slot).fields? = some f) (hi : i < f.length) : f.storeLine + i < Config.storeLines := by
  have hmem : entryAt tbl slot ∈ tbl :=
    entryAt_mem (lt_length_of_entryAt_ne fun he => by rw [he] at hfields; cases hfields)
  have hinside := List.all_eq_true.mp h _ hmem
  simp only [Entry.inStore, Entry.extent?, hfields, Option.map_some, EntryFields.extent, decide_eq_true_eq] at hinside
  omega

theorem fillOwner_inBounds {slot index : Nat} {data : List Byte} (hs : s.inBounds)
    (hdata : data.length ≤ Config.lineBytes) (h : fillOwner p slot index data s = .ok (s', r)) : s'.inBounds := by
  have hb := hs.restartIdle p
  unfold fillOwner fillBody at h
  split at h
  · split at h
    · cases h
    rename_i hinside
    rw [Bool.not_eq_true, Bool.not_eq_false'] at hinside
    split at h
    · cases h; exact hb
    split at h
    · rename_i f fillMap hentry
      rw [(State.restartIdle_agrees s p).table] at hentry
      split at h <;> cases h
      · exact hb
      · have hline := line_lt_of_tableInStore hinside (by rw [hentry]; rfl) (Nat.not_le.mp ‹_›)
        exact (hb.putTable _).writeLine hline hdata
    · cases h; exact hb
  · cases h; exact hs

theorem removeOwner_inBounds {slot : Nat} (hs : s.inBounds) (h : removeOwner p slot s = .ok (s', r)) :
    s'.inBounds := by
  unfold removeOwner removeBody at h
  (repeat' split at h) <;> cases h <;> exact hs.of_same (by simp) (by simp) (by simp) (by simp)

theorem commitOwner_inBounds (hs : s.inBounds) (h : commitOwner p s = .ok (s', r)) : s'.inBounds := by
  have hb := hs.restartIdle p
  unfold commitOwner commitBody at h
  (repeat' split at h) <;> cases h
  · exact hb.endSession
  · exact hb
  · exact hb
  · exact hb.commitStep.endSession
  · exact hs

theorem abortOwner_inBounds (hs : s.inBounds) (h : abortOwner p s = .ok (s', r)) : s'.inBounds := by
  unfold abortOwner at h
  (repeat' split at h) <;> cases h
  · exact hs.release
  · exact hs.of_same rfl rfl rfl rfl
  · exact hs

/-- An accepted RELOAD clears the notices and the store's bytes, and orphans the read in flight (R26, R83, R151). -/
theorem State.inBounds.reload (hs : s.inBounds) : s.reload.inBounds := by
  refine ⟨fun q => ?_, by simpa using hs.errors, hs.xmc.reload.of_same rfl rfl, s.store.wf_restart⟩
  have hcleared : s.reload.notices.get q = (s.notices.get q).clear := PerPort.get_tabulate _ q
  rw [hcleared]
  exact NoticeUnit.sound_of_clear _

theorem reloadOwner_inBounds (hs : s.inBounds) (h : reloadOwner p s = .ok (s', r)) : s'.inBounds := by
  unfold reloadOwner at h
  split at h <;> cases h
  · exact hs.reload.grant
  · exact hs

theorem State.inBounds.portReset (hs : s.inBounds) (p : Port) : (s.portReset p).inBounds := by
  have hnotice := ((hs.resetStreamPart p).resetSessionPart p).putNotice p
    (NoticeUnit.sound_of_clear (((s.resetStreamPart p).resetSessionPart p).loader.defaults.ports.get p).mask)
  unfold State.portReset
  exact State.inBounds.putLink (hnotice.putStream p _) p (Nat.zero_le _)

theorem State.deviceReset_inBounds (s : State) : s.deviceReset.inBounds := by
  refine ⟨fun q => ?_, fun q => ?_, ⟨Nat.zero_le _, by rintro r ⟨⟩⟩, s.store.wf_restart⟩
  · have hreset : s.deviceReset.notices.get q = NoticeUnit.reset := PerPort.get_same _ q
    rw [hreset]
    exact NoticeUnit.sound_of_clear _
  · have hreset : s.deviceReset.links.get q = (s.links.get q).deviceReset := PerPort.get_tabulate _ q
    rw [hreset]
    exact Nat.zero_le _

/-- An access before the sixteenth leaves one to complete, and the sixteenth ends the read with 32 bytes (R71, R73). -/
theorem execAccessCompletes_inBounds {xd : Halfword} (hs : s.inBounds) (h : execAccessCompletes xd s = .next t) :
    t.inBounds := by
  unfold execAccessCompletes at h
  dsimp only at h
  split at h
  · cases h; exact hs
  rename_i r hr
  split at h
  · cases h
    exact hs.of_xmc ⟨hs.xmc.faults, by rintro r ⟨⟩; assumption⟩ rfl rfl rfl
  split at h <;> cases h
  refine hs.endRead (Bool.eq_false_iff.mpr ‹_›) fun line hline => ?_
  have hshort := hs.xmc.short r hr
  cases hline
  simp only [length_bytesOfHalfwords, List.length_append, List.length_singleton, Config.lineBytes,
    Config.accessesPerLine] at *
  omega

theorem execReadyLimitExceeded_inBounds (hs : s.inBounds) (h : execReadyLimitExceeded s = .next t) : t.inBounds := by
  unfold execReadyLimitExceeded at h
  split at h <;> cases h
  · exact hs
  · exact hs.endRead (by simp [State.endReadOutsideStore]) (by rintro line ⟨⟩)

theorem exec_inBounds (hs : s.inBounds) (h : exec c s = .next t) : t.inBounds := by
  have request : ∀ {p k payload} {owner : State → Answer}, (∀ s' r, owner s = .ok (s', r) → s'.inBounds) →
      s.pointOfAction p k payload owner = .next t → t.inBounds := fun ho =>
    State.pointOfAction_keeps hs (fun u r hu => hu.respond _ r) (fun _ _ => ho)
  cases c with
  | seek p line => exact request (fun _ _ => seekOwner_inBounds hs) h
  | next p => exact request (fun _ _ => nextOwner_inBounds hs) h
  | portSet p level prefetch mask base size => exact request (fun _ _ => portSetOwner_inBounds hs) h
  | status p => exact request (owner := statusOwner p) (fun s' r ho => by cases ho; exact hs) h
  | tableRead p slot =>
    refine request (fun s' r ho => ?_) h
    unfold tableReadOwner at ho
    split at ho <;> cases ho <;> exact hs
  | noticeTake p => exact request (fun _ _ => noticeTakeOwner_inBounds hs) h
  | claim p wait => exact request (fun _ _ => claimOwner_inBounds hs) h
  | add p tag line length scope sum => exact request (fun _ _ => addOwner_inBounds hs) h
  | fill p slot index data =>
    refine State.pointOfAction_keeps hs (fun u r hu => hu.respond _ r) (fun harr _ _ _ => fillOwner_inBounds hs ?_) h
    have := harr.payload_length
    simp only [fillPayload, payloadLength, List.length_cons, Config.lineBytes] at *
    omega
  | remove p slot => exact request (fun _ _ => removeOwner_inBounds hs) h
  | commit p => exact request (fun _ _ => commitOwner_inBounds hs) h
  | abort p => exact request (fun _ _ => abortOwner_inBounds hs) h
  | reload p => exact request (fun _ _ => reloadOwner_inBounds hs) h
  | portReset p =>
    refine request (owner := portResetOwner p) (fun s' r ho => ?_) h
    cases ho
    exact hs.portReset p
  | badFrame p =>
    replace h : execBadFrame p s = .next t := h
    unfold execBadFrame at h
    split at h <;> cases h
    · exact (hs.putLink p (HostLink.countError_errors_le _)).respond p _
    · exact hs
  | badKind p =>
    replace h : execBadKind p s = .next t := h
    unfold execBadKind at h
    split at h <;> cases h
    · exact hs.respond p _
    · exact hs
  | selectAsserted p =>
    cases h
    exact hs.putLink p ((HostLink.assertSelect_errors _ _).trans_le (hs.errors p))
  | frameDiscarded p =>
    replace h : execFrameDiscarded p s = .next t := h
    unfold execFrameDiscarded at h
    split at h <;> cases h
    · exact hs.putLink p (HostLink.countError_errors_le _)
    · exact hs
  | responseLost p =>
    replace h : execResponseLost p s = .next t := h
    unfold execResponseLost at h
    split at h <;> cases h
    · exact hs.putLink p (hs.errors p)
    · exact hs
  | deviceReset => cases h; exact s.deviceReset_inBounds
  | resetEnd straps =>
    replace h : execResetEnd straps s = .next t := h
    unfold execResetEnd at h
    split at h <;> cases h
    · exact State.inBounds.grant (State.inBounds.loaderRead ((hs.putInReset false).putLoader _) _ _)
    · exact hs
  | timebaseTick => cases h; exact hs.of_same rfl rfl rfl rfl
  | drainExpiry =>
    replace h : execDrainExpiry s = .next t := h
    unfold execDrainExpiry at h
    split at h <;> cases h
    · exact hs
    · exact (hs.expirePorts _ allPorts).of_same rfl rfl rfl rfl
  | sessionExpiry =>
    replace h : execSessionExpiry s = .next t := h
    unfold execSessionExpiry at h
    split at h <;> cases h
    · exact hs
    · exact (hs.hand _ _).release
  | accessCompletes xd => exact execAccessCompletes_inBounds hs h
  | readyLimitExceeded => exact execReadyLimitExceeded_inBounds hs h
  | byteReceived p lo hi => cases h; exact hs.putLink p ((HostLink.clockByte_errors _ _).trans_le (hs.errors p))
  | byteSent p => cases h; exact hs.putLink p ((HostLink.send_errors _).trans_le (hs.errors p))
  | selectReleased p => cases h; exact hs.putLink p (HostLink.selectReleased_errors_le _ (hs.errors p))

end

/-- Settles O51, command by command: a counter counts up to its bound, a notice is given to a queue with room, a line is written
into a store line that exists, and a read in flight ends at its sixteenth access. -/
theorem stepKeepsBuffersInBounds : Obligations.StepKeepsBuffersInBounds := by
  intro s t hnotices hcounters hcontent hstep
  have hs : s.inBounds := State.inBounds_iff.mpr ⟨hnotices, hcounters, hcontent⟩
  refine State.inBounds_iff.mp ?_
  rcases step_cases hstep with ⟨-, rfl⟩ | ⟨c, rest, -, hexec⟩
  · exact hs
  · exact exec_inBounds (hs.putPending rest) hexec

end Sys2Proof.Machine

/-! # The host links: frames, select, and the bytes of an exchange; STATUS and PORT_RESET (file 09)

A link in REQUEST is described by the bytes it has received (`Phase.received`): the count, the running sum and the kept bytes of
R167 are functions of that list, so a frame clocked in byte by byte meets the four checks with its own length, sum and bytes. -/

namespace Sys2Proof.Machine

/-! ## The bytes of frames (R167, R172, R173, R176) -/

section
variable {k : Kind} {payload : List Byte}

/-- A sum of bytes is their sum as numbers, modulo 256. -/
theorem toNat_sum_bytes (l : List Byte) : l.sum.toNat = (l.map BitVec.toNat).sum % 256 := by
  induction l with
  | nil => rfl
  | cons b l ih => simp [BitVec.toNat_add, ih]

/-- The check byte brings the sum to 0 (R167, R172). -/
theorem sum_append_checkByte (bytes : List Byte) : (bytes ++ [checkByte bytes]).sum = 0 := by
  simp [checkByte]

theorem toNat_sum_append_checkByte (bytes : List Byte) :
    ((bytes ++ [checkByte bytes]).map BitVec.toNat).sum % 256 = 0 := by
  rw [← toNat_sum_bytes, sum_append_checkByte]
  rfl

/-- The kind of each code from 0x01 to 0x0E (R173). -/
theorem toNat_kindCode_getElem : ∀ i : Fin 14, (kindCode allKinds[i]).toNat = i + 1 := by decide

/-- The codes of the kinds are 0x01 to 0x0E (R173). -/
theorem exists_kindCode_iff {b : Byte} : (∃ k, b = kindCode k) ↔ 1 ≤ b.toNat ∧ b.toNat ≤ 0x0E := by
  refine ⟨?_, fun ⟨hlow, hhigh⟩ => ⟨allKinds[b.toNat - 1]'(by simp; omega), BitVec.eq_of_toNat_eq ?_⟩⟩
  · rintro ⟨k, rfl⟩
    cases k <;> decide
  · have := toNat_kindCode_getElem ⟨b.toNat - 1, by omega⟩
    simp only [Fin.getElem_fin] at this
    omega

/-- A code names its kind (R173). -/
@[simp] theorem kindOfCode_kindCode (k : Kind) : kindOfCode (kindCode k) = some k := by
  cases k <;> rfl

/-- The undefined codes are those of no kind (R168). -/
theorem kindOfCode_eq_none_iff {b : Byte} : kindOfCode b = none ↔ ¬ ∃ k, b = kindCode k := by
  refine ⟨?_, fun h => ?_⟩
  · rintro h ⟨k, rfl⟩
    simp at h
  · simp only [kindOfCode, List.find?_eq_none, beq_iff_eq]
    exact fun k _ hk => h ⟨k, hk.symm⟩

/-! ## The four checks (R168) -/

variable {count : Nat} {sum : Byte} {kept : List Byte}

/-- Checks 1 and 2: the byte count and the sum. -/
theorem checkFrame_of_damaged (h : count < 2 ∨ sum ≠ 0) : checkFrame count sum kept = .badFrame := by
  unfold checkFrame
  by_cases hcount : count < 2
  · exact if_pos hcount
  · rw [if_neg hcount, if_pos (h.resolve_left hcount)]

/-- Check 3: the kind code. -/
theorem checkFrame_of_undefined (hcount : 2 ≤ count) (hsum : sum = 0) (hcode : ¬ ∃ k, kept.headD 0 = kindCode k) :
    checkFrame count sum kept = .badKind := by
  unfold checkFrame
  rw [if_neg (Nat.not_lt.mpr hcount), if_neg (not_not.mpr hsum), kindOfCode_eq_none_iff.mpr hcode]

/-- Check 4: the kind's payload length. -/
theorem checkFrame_of_kind (hcount : 2 ≤ count) (hsum : sum = 0) (hcode : kept.headD 0 = kindCode k) :
    checkFrame count sum kept =
      if count ≠ 2 + payloadLength k then .badFrame else .correct k ((kept.drop 1).take (payloadLength k)) := by
  unfold checkFrame
  rw [if_neg (Nat.not_lt.mpr hcount), if_neg (not_not.mpr hsum), hcode, kindOfCode_kindCode]

end

/-- Settles O4, one check after the other. -/
theorem frameChecksInOrder : Obligations.FrameChecksInOrder := by
  refine ⟨fun count sum kept => ⟨checkFrame_of_damaged, fun hcount hsum hcode => ?_, fun k hcount hsum hcode hlen => ?_,
    fun k hsum hcode hlen => ?_, fun _ _ hlow hhigh => exists_kindCode_iff.mpr ⟨hlow, hhigh⟩⟩,
    fun k => by cases k <;> rfl⟩
  · exact checkFrame_of_undefined hcount hsum (by rw [exists_kindCode_iff]; omega)
  · exact (checkFrame_of_kind hcount hsum hcode).trans (if_pos hlen)
  · exact (checkFrame_of_kind (by omega) hsum hcode).trans (if_neg (not_not.mpr hlen))

/-- Settles O5: both frames end in the check byte of the bytes before it. -/
theorem framesAreSpelled : Obligations.FramesAreSpelled :=
  ⟨fun _ => ⟨_, rfl, toNat_sum_append_checkByte _⟩, fun _ _ => ⟨_, rfl, toNat_sum_append_checkByte _⟩,
    fun st => by cases st <;> rfl⟩

/-! ## Select and the bytes on a link (R166, R167, R172, R187) -/

section
variable {l : HostLink} {s : State} {p : Port}

/-- A link that is left as it was (R166). -/
@[simp] theorem State.putLink_get (s : State) (p : Port) : s.putLink p (s.links.get p) = s := by
  simp [State.putLink, State.putLinks]

/-- Select asserted on a released IDLE link (R166, R184). -/
theorem HostLink.assertSelect_of_idle {inReset : Bool} (hphase : l.phase = .idle) (hselect : l.selected = false)
    (hrun : inReset = false) :
    l.assertSelect inReset = { l with phase := .request 0 0 [], selected := true, lastSent := none } := by
  simp [HostLink.assertSelect, hphase, hselect, hrun]

/-- Select asserted while a device reset lasts (R184). -/
theorem HostLink.assertSelect_in_reset {inReset : Bool} (hselect : l.selected = false) (hreset : inReset = true) :
    l.assertSelect inReset = { l with selected := true } := by
  simp [HostLink.assertSelect, hselect, hreset]

/-- Select asserted on a link whose select was not released (R187). -/
theorem HostLink.assertSelect_of_selected (inReset : Bool) (hselect : l.selected = true) : l.assertSelect inReset = l :=
  if_pos hselect

/-- A byte clocked outside REQUEST and RESPONSE (R166). -/
theorem HostLink.clockByte_of_quiet (b : Byte) (hphase : l.phase = .done ∨ l.phase = .idle) : l.clockByte b = l := by
  rcases hphase with h | h <;> simp [HostLink.clockByte, h]

/-- A byte clocked in REQUEST (R167). -/
theorem HostLink.clockByte_of_request (b : Byte) {count : Nat} {sum : Byte} {kept : List Byte}
    (hphase : l.phase = .request count sum kept) :
    l.clockByte b = { l with phase := .request (count + 1) (sum + b) (if count < 36 then kept ++ [b] else kept) } := by
  simp [HostLink.clockByte, hphase, Phase.receive]

/-- A byte clocked in RESPONSE is the next one sent (R172). -/
theorem HostLink.clockByte_of_response (b : Byte) {bytes : List Byte} (hphase : l.phase = .response bytes) :
    l.clockByte b = l.send := by
  simp [HostLink.clockByte, hphase]

/-- Select released in REQUEST: the frame is counted as an error (R169, R170). -/
theorem HostLink.selectReleased_of_request {count : Nat} {sum : Byte} {kept : List Byte}
    (hphase : l.phase = .request count sum kept) : l.selectReleased = ⟨.idle, min 255 (l.errors + 1), false, none⟩ := by
  simp only [HostLink.selectReleased, hphase]
  rfl

/-- Select released in any other phase: nothing is counted (R166, R170, R172). -/
theorem HostLink.selectReleased_of_no_request (hphase : ∀ count sum kept, l.phase ≠ .request count sum kept) :
    l.selectReleased = ⟨.idle, l.errors, false, none⟩ := by
  unfold HostLink.selectReleased
  split
  · exact absurd ‹_› (hphase _ _ _)
  all_goals rfl

/-- Two samples as a number: the first gives bits 0 to 3 (R187). -/
theorem toNat_byteOfSamples (lo hi : BitVec 4) : (byteOfSamples lo hi).toNat = lo.toNat + 16 * hi.toNat := by
  unfold byteOfSamples
  rw [BitVec.toNat_append, ← Nat.shiftLeft_add_eq_or_of_lt lo.isLt, Nat.shiftLeft_eq]
  omega

/-- What the hub drives while a response byte is left, outside a device reset (R187). -/
theorem State.dataLines_of_response {b : Byte} {rest : List Byte} (hrun : s.inReset = false)
    (hphase : (s.links.get p).phase = .response (b :: rest)) (point : LinkClock) : s.dataLines p point =
      match point with
      | .sinceMark => none
      | .firstNibble => some (nibblesOfByte b).1
      | .secondNibble => some (nibblesOfByte b).2 := by
  simp only [State.dataLines, hrun, hphase]
  cases point <;> rfl

/-- The data lines are released in every other phase and while a device reset lasts (R187). -/
theorem State.dataLines_eq_none (h : (∀ bytes, (s.links.get p).phase ≠ .response bytes) ∨ s.inReset = true)
    (point : LinkClock) : s.dataLines p point = none := by
  unfold State.dataLines
  rcases h with hphase | hreset
  · split
    · rfl
    · cases h : (s.links.get p).phase with
      | response bytes => exact absurd h (hphase bytes)
      | _ => rfl
  · exact if_pos hreset

end

/-- Settles O7, by the level of select and whether a device reset lasts. -/
theorem selectAssertedStartsRequest : Obligations.SelectAssertedStartsRequest := by
  intro p s lo hi hphase
  have hassert : exec (.selectAsserted p) s = .next (s.putLink p ((s.links.get p).assertSelect s.inReset)) := rfl
  have hclock : exec (.byteReceived p lo hi) s = .next (s.putLink p ((s.links.get p).clockByte (byteOfSamples lo hi))) :=
    rfl
  refine ⟨fun hselect hrun => ?_, fun hselect hreset => ?_, fun hselect => ⟨?_, ?_⟩⟩
  · rw [hassert, HostLink.assertSelect_of_idle hphase hselect hrun]
    rfl
  · rw [hassert, HostLink.assertSelect_in_reset hselect hreset]
    rfl
  · rw [hclock, HostLink.clockByte_of_quiet _ (.inr hphase), State.putLink_get]
  · rw [hassert, HostLink.assertSelect_of_selected _ hselect, State.putLink_get]

/-- Settles O8, by the phase of the link. -/
theorem bytesOnALink : Obligations.BytesOnALink := by
  intro p s
  have hclock : ∀ lo hi, exec (.byteReceived p lo hi) s =
      .next (s.putLink p ((s.links.get p).clockByte (byteOfSamples lo hi))) := fun _ _ => rfl
  have hsend : exec (.byteSent p) s = .next (s.putLink p (s.links.get p).send) := rfl
  refine ⟨fun lo hi count sum kept hphase => ⟨byteOfSamples lo hi, toNat_byteOfSamples lo hi, ?_⟩,
    fun b rest hphase => ⟨(nibblesOfByte b).1, (nibblesOfByte b).2, ?_, fun hrun => ?_, ?_⟩,
    fun lo hi bytes hphase => ⟨_, ?_, hsend⟩, fun lo hi hphase => ?_, fun hquiet point => ?_⟩
  · rw [hclock, HostLink.clockByte_of_request _ hphase]
    rfl
  · rw [← toNat_byteOfSamples, byteOfSamples_nibblesOfByte]
  · simp [State.drivesData, State.dataLines_of_response hrun hphase]
  · rw [hsend, HostLink.send_of_response hphase]
    simp only [List.isEmpty_iff]
    rfl
  · rw [hclock, HostLink.clockByte_of_response _ hphase]
  · rw [hclock, HostLink.clockByte_of_quiet _ hphase, State.putLink_get]
  · simp [State.drivesData, State.dataLines_eq_none hquiet point]

/-- Settles O9, by the phase of the link. -/
theorem selectReleaseByPhase : Obligations.SelectReleaseByPhase := by
  intro p s
  have hrelease : exec (.selectReleased p) s = .next (s.putLink p (s.links.get p).selectReleased) := rfl
  refine ⟨fun count sum kept hphase => ⟨_, rfl, ?_, ?_⟩, fun unsent hphase => ⟨_, rfl, ?_, ?_⟩, fun hphase => ?_⟩
  · change execFrameDiscarded p s = _
    simp only [execFrameDiscarded, hphase]
    rfl
  · rw [hrelease, HostLink.selectReleased_of_request hphase]
    rfl
  · change execResponseLost p s = _
    simp only [execResponseLost, hphase]
    rfl
  · rw [hrelease, HostLink.selectReleased_of_no_request (by simp [hphase])]
    rfl
  · rw [hrelease, HostLink.selectReleased_of_no_request (by rcases hphase with h | h <;> simp [h])]
    rfl

/-! ## A correct frame, byte by byte (R167, R168, R175) -/

section
variable {s : State} {p : Port} {k : Kind} {payload : List Byte}

/-- The phase of a link that has received these bytes since select was asserted (R167). -/
def Phase.received (bytes : List Byte) : Phase := .request bytes.length bytes.sum (bytes.take 36)

/-- One byte more is counted, summed, and kept among the first 36 (R167). -/
theorem Phase.receive_received (bytes : List Byte) (b : Byte) :
    Phase.receive bytes.length bytes.sum (bytes.take 36) b = Phase.received (bytes ++ [b]) := by
  unfold Phase.receive Phase.received
  by_cases h : bytes.length < 36
  · simp [h, List.take_of_length_le (Nat.le_of_lt h), List.take_of_length_le, Nat.succ_le_of_lt h]
  · simp [h, List.take_append_of_le_length (Nat.not_lt.mp h)]

theorem HostLink.clockByte_received (l : HostLink) (bytes : List Byte) (b : Byte) :
    HostLink.clockByte { l with phase := .received bytes } b = { l with phase := .received (bytes ++ [b]) } := by
  rw [← Phase.receive_received]
  rfl

@[simp] theorem State.putLink_putLink (s : State) (p : Port) (l l' : HostLink) :
    (s.putLink p l).putLink p l' = s.putLink p l' := by
  simp [State.putLink, State.putLinks]

/-- One byte clocked into link `p`, as its two nibbles (R167, R187). -/
theorem State.clockIn_cons (s : State) (p : Port) (b : Byte) (bytes : List Byte) :
    s.clockIn p (b :: bytes) = (s.putLink p ((s.links.get p).clockByte b)).clockIn p bytes := by
  change (s.putLink p ((s.links.get p).clockByte (byteOfSamples (nibblesOfByte b).1 (nibblesOfByte b).2))).clockIn p bytes
    = _
  rw [byteOfSamples_nibblesOfByte]

/-- Bytes clocked into a link in REQUEST join those received before, and nothing else changes (R167). -/
theorem State.clockIn_received (s : State) (p : Port) (l : HostLink) (before bytes : List Byte) :
    (s.putLink p { l with phase := .received before }).clockIn p bytes
      = s.putLink p { l with phase := .received (before ++ bytes) } := by
  induction bytes generalizing before with
  | nil => simp [State.clockIn]
  | cons b bytes ih =>
    rw [State.clockIn_cons, State.putLink_links, PerPort.get_set_same, HostLink.clockByte_received, State.putLink_putLink,
      ih, List.append_assoc, List.singleton_append]

/-- The longest payload is FILL's (R173). -/
theorem payloadLength_le (k : Kind) : payloadLength k ≤ 34 := by cases k <;> decide

/-- A link that has received a request's whole frame meets it at the turnaround (R167, R168). -/
theorem State.arrived_of_received (hrun : s.inReset = false) (hlen : payload.length = payloadLength k)
    (hphase : (s.links.get p).phase = .received (requestFrame k payload)) : s.arrived p k payload := by
  have hcount : (requestFrame k payload).length = 2 + payloadLength k := by
    simp only [requestFrame, List.length_append, List.length_cons, List.length_nil, hlen]
    omega
  have hkept : (requestFrame k payload).take 36 = requestFrame k payload :=
    List.take_of_length_le (by have := payloadLength_le k; omega)
  have hcheck := (checkFrame_of_kind (count := 2 + payloadLength k) (kept := requestFrame k payload)
    (Nat.le_add_right _ _) (sum_append_checkByte (kindCode k :: payload)) rfl).trans (if_neg (not_not.mpr rfl))
  have hpayload : ((requestFrame k payload).drop 1).take (payloadLength k) = payload := by
    simp [requestFrame, ← hlen]
  rw [hpayload] at hcheck
  simp only [State.arrived, State.frameAt, hrun, hphase, Phase.received, hcount, hkept]
  exact congrArg some hcheck

/-- The payload of a well-formed request has the length of its kind (R173). -/
theorem payload_length_of_requestOf {c : Instr} (hwell : c.wellFormed = true)
    (hreq : requestOf c = some (p, k, payload)) : payload.length = payloadLength k := by
  cases c with
  | fill q slot index data => exact Laws.PayloadLength.fill q slot index data p k payload hwell hreq
  | seek | next | portSet | status | tableRead | noticeTake | claim | add | remove | commit | abort | reload | portReset =>
    cases hreq
    rfl
  | _ => cases hreq

end

/-! ### The fields of a payload (R175) -/

theorem seekPayload_fields (line : BitVec 24) :
    (seekPayload line).length = 3 ∧ read3 (seekPayload line) 0 = line.toNat :=
  ⟨rfl, (read3_of_bytes rfl rfl rfl).trans (Nat.mod_eq_of_lt line.isLt)⟩

theorem addPayload_fields (tag : BitVec 16) (line : BitVec 24) (length scope : Byte) (sum : BitVec 16) :
    let b := addPayload tag line length scope sum
    b.length = 9 ∧ read2 b 0 = tag.toNat ∧ read3 b 2 = line.toNat ∧ byteAt b 5 = length.toNat ∧
      byteAt b 6 = scope.toNat ∧ read2 b 7 = sum.toNat :=
  ⟨rfl, (read2_of_bytes rfl rfl).trans (Nat.mod_eq_of_lt tag.isLt),
    (read3_of_bytes rfl rfl rfl).trans (Nat.mod_eq_of_lt line.isLt), rfl, rfl,
    (read2_of_bytes rfl rfl).trans (Nat.mod_eq_of_lt sum.isLt)⟩

/-- The request command that a kind and a payload spell (R173, R175). -/
def commandOf (p : Port) (payload : List Byte) : Kind → Instr
  | .seek => .seek p (BitVec.ofNat 24 (read3 payload 0))
  | .next => .next p
  | .portSet =>
    .portSet p (payload.getD 0 0) (payload.getD 1 0) (payload.getD 2 0) (payload.getD 3 0) (payload.getD 4 0)
  | .status => .status p
  | .tableRead => .tableRead p (payload.getD 0 0)
  | .noticeTake => .noticeTake p
  | .claim => .claim p (payload.getD 0 0)
  | .add => .add p (BitVec.ofNat 16 (read2 payload 0)) (BitVec.ofNat 24 (read3 payload 2)) (payload.getD 5 0)
      (payload.getD 6 0) (BitVec.ofNat 16 (read2 payload 7))
  | .fill => .fill p (payload.getD 0 0) (payload.getD 1 0) (payload.drop 2)
  | .remove => .remove p (payload.getD 0 0)
  | .commit => .commit p
  | .abort => .abort p
  | .reload => .reload p
  | .portReset => .portReset p

/-- A request command is read back from its kind and payload (R175). -/
theorem commandOf_requestOf {c : Instr} {p : Port} {k : Kind} {payload : List Byte}
    (hreq : requestOf c = some (p, k, payload)) : commandOf p payload k = c := by
  cases c with
  | seek q line =>
    cases hreq
    simp only [commandOf, (seekPayload_fields line).2, BitVec.ofNat_toNat, BitVec.setWidth_eq]
  | add q tag line length scope sum =>
    cases hreq
    obtain ⟨-, htag, hline, -, -, hsum⟩ := addPayload_fields tag line length scope sum
    simp only [commandOf, htag, hline, hsum, BitVec.ofNat_toNat, BitVec.setWidth_eq]
    rfl
  | next | portSet | status | tableRead | noticeTake | claim | fill | remove | commit | abort | reload | portReset =>
    cases hreq
    rfl
  | _ => cases hreq

/-- Settles O3: the bytes accumulate to the whole frame, which passes the checks, and a payload's fields give its command back. -/
theorem correctFrameIsAccepted : Obligations.CorrectFrameIsAccepted := by
  refine ⟨fun c p k payload s hwell hreq hrun hphase hselect => ?_, fun c c' ⟨p, k, payload⟩ hc hc' =>
    (commandOf_requestOf hc).symm.trans (commandOf_requestOf hc'), fun p => ?_⟩
  · have hassert : exec (.selectAsserted p) s = .next (s.putLink p ((s.links.get p).assertSelect s.inReset)) := rfl
    have hclock := s.clockIn_received p { s.links.get p with selected := true, lastSent := none } []
      (requestFrame k payload)
    rw [HostLink.assertSelect_of_idle hphase hselect hrun] at hassert
    refine ⟨_, hassert, ?_, _, hclock, rfl, rfl⟩
    refine hclock ▸ State.arrived_of_received hrun (payload_length_of_requestOf hwell hreq) ?_
    simp
  · exact ⟨fun line => ⟨rfl, seekPayload_fields line⟩, fun _ _ _ _ _ => rfl, fun _ => rfl, fun _ => rfl,
      fun tag line length scope sum => ⟨rfl, addPayload_fields tag line length scope sum⟩, fun _ _ _ => ⟨rfl, rfl⟩,
      fun _ => rfl, rfl, rfl, rfl, rfl, rfl, rfl, rfl⟩

/-! ## STATUS (R179) -/

/-- Byte 15 of STATUS: the first skipped record's index, 0xFF for none. -/
def firstSkipByte (skip : Option (Nat × SkipCause)) : Byte := skip.elim 0xFF (fun x => .ofNat 8 x.1)

/-- Byte 16 of STATUS: the first skipped record's cause, 0 for none. -/
def skipCauseByte (skip : Option (Nat × SkipCause)) : Byte := skip.elim 0 (fun x => .ofNat 8 (skipCauseCode x.2))

/-- Byte 19 of STATUS: the owner's port, 0xFF for none. -/
def ownerByte (session : Option Session) : Byte := session.elim 0xFF (fun ses => .ofNat 8 (portIndex ses.owner))

theorem statusLoad_bytes (s : State) : statusLoad s =
    [if s.loader.ready then 1 else 0, .ofNat 8 (loadResultCode s.loader.report.result),
      .ofNat 8 (headerCauseCode s.loader.report.headerCause), .ofNat 8 s.loader.report.placed,
      .ofNat 8 s.loader.report.skipped, firstSkipByte s.loader.report.firstSkip,
      skipCauseByte s.loader.report.firstSkip, .ofNat 8 s.loader.report.tag.toNat,
      .ofNat 8 (s.loader.report.tag.toNat / 256)] := by
  unfold statusLoad
  dsimp only
  cases s.loader.report.firstSkip <;> rfl

theorem statusSession_bytes (p : Port) (s : State) : statusSession p s =
    [ownerByte s.edit.session, if decide (p ∈ s.edit.claimQueue) then 1 else 0,
      .ofNat 8 (s.notices.get p).queue.length, if (s.notices.get p).overflow then 1 else 0] := by
  unfold statusSession
  cases s.edit.session <;> rfl

/-- A flag byte as a number (00 Conventions). -/
theorem toNat_flag (c : Prop) [Decidable c] : (if c then (1 : Byte) else 0).toNat = if c then 1 else 0 := by
  split <;> rfl

theorem toNat_firstSkipByte (skip : Option (Nat × SkipCause)) :
    (firstSkipByte skip).toNat = skip.elim 255 (fun x => x.1 % 256) := by
  cases skip <;> rfl

theorem toNat_skipCauseByte (skip : Option (Nat × SkipCause)) :
    (skipCauseByte skip).toNat = skip.elim 0 (fun x => skipCauseCode x.2) := by
  rcases skip with _ | ⟨i, cause⟩
  · rfl
  · cases cause <;> rfl

theorem toNat_ownerByte (session : Option Session) :
    (ownerByte session).toNat = session.elim 255 (fun ses => portIndex ses.owner) := by
  rcases session with _ | ⟨owner, timer, ops⟩
  · rfl
  · cases owner <;> rfl

theorem toNat_streamStateCode (state : StreamState) :
    (BitVec.ofNat 8 (streamStateCode state)).toNat = streamStateCode state := by
  cases state <;> rfl

/-- Settles O23: STATUS is answered in both load states, and each field is read at its place in the payload's bytes. -/
theorem statusReportsEveryField : Obligations.StatusReportsEveryField := by
  intro p s harr
  refine ⟨_, State.pointOfAction_ok (owner := statusOwner p) harr (.inr rfl) rfl, ?_⟩
  simp only [statusPayload, statusLoad_bytes, statusSession_bytes, statusStream, statusBlocks, statusSettings,
    generationField, field1, field2, field3, fieldFlag, List.cons_append, List.nil_append]
  refine ⟨rfl, (toNat_streamStateCode _).trans ?_, (read3_of_bytes rfl rfl rfl).trans ?_, read2_of_bytes rfl rfl,
    read2_of_bytes rfl rfl, read2_of_bytes rfl rfl, toNat_flag _, ?_, ?_, rfl, rfl, (toNat_firstSkipByte _).trans ?_,
    (toNat_skipCauseByte _).trans ?_, (read2_of_bytes rfl rfl).trans (Nat.mod_eq_of_lt s.loader.report.tag.isLt),
    (toNat_ownerByte _).trans ?_, (toNat_flag _).trans ?_, rfl, toNat_flag _, read2_of_bytes rfl rfl,
    read3_of_bytes rfl rfl rfl, rfl, read2_of_bytes rfl rfl, read2_of_bytes rfl rfl, rfl, rfl, rfl, rfl, toNat_flag _,
    Nat.mod_eq_of_lt (by omega)⟩
  · cases (s.streams.get p).state <;> rfl
  · unfold StreamUnit.reportedCounter
    cases (s.streams.get p).state <;> rfl
  · cases s.loader.report.result <;> rfl
  · cases s.loader.report.headerCause <;> rfl
  · cases s.loader.report.firstSkip <;> rfl
  · rcases s.loader.report.firstSkip with _ | ⟨i, cause⟩
    · rfl
    · cases cause <;> rfl
  · cases s.edit.session <;> rfl
  · simp only [decide_eq_true_eq]

/-! ## PORT_RESET (R182) -/

section
variable {s : State} {p : Port}

/-- The end of a drain takes no STAGED entry (R99). -/
theorem extentsWhere_isStaged_afterDrain (tbl : List Entry) :
    extentsWhere Entry.isStaged (tbl.map Entry.afterDrain) = extentsWhere Entry.isStaged tbl := by
  induction tbl with
  | nil => rfl
  | cons e tbl ih => cases e <;> simp_all [extentsWhere_cons, Entry.afterDrain, Entry.isStaged]

/-- The session of another port stays, and the port leaves the claim queue (R131). -/
theorem State.resetSessionPart_of_other (h : s.isOwner p = false) : s.resetSessionPart p = s.leaveQueue p := by
  unfold State.resetSessionPart
  rw [if_neg (by simp [h])]
  split
  · rfl
  · rename_i hqueue
    simp [State.leaveQueue, State.putEdit, List.erase_of_not_mem hqueue]

/-- The session of the port is released and handed over (R112, R131). -/
theorem State.resetSessionPart_of_owner (h : s.isOwner p = true) : s.resetSessionPart p = s.release := if_pos h

/-- PORT_RESET in either load state (R182). -/
theorem exec_portReset (harr : s.arrived p .portReset []) :
    exec (.portReset p) s = .next ((s.portReset p).respond p (bare .ok)) :=
  State.pointOfAction_ok (owner := portResetOwner p) harr (.inr rfl) rfl

/-- The blocks after PORT_RESET, by the parts that decide them (R182). -/
theorem State.portReset_blocks (s : State) (p : Port) :
    let u := (s.resetStreamPart p).resetSessionPart p
    (s.portReset p).xmc = (s.abandonBoth p).xmc ∧ (s.portReset p).table = u.table ∧
      (s.portReset p).store = u.store ∧ (s.portReset p).gen = (s.resetStreamPart p).gen ∧ (s.portReset p).edit = u.edit ∧
      (s.portReset p).notices = u.notices.set p ⟨[], false, (s.loader.defaults.ports.get p).mask⟩ ∧
      (s.portReset p).links = s.links.set p { s.links.get p with errors := 0 } := by
  simp [State.portReset, State.resetStreamPart, State.resetNoticePart, NoticeUnit.clear, State.closeIdle_xmc]

/-- The drain ends with the last port bound to S (R89, R99). -/
theorem State.resetStreamPart_of_last (h : s.lastOnSuperseded p) :
    (s.resetStreamPart p).gen = ⟨s.gen.current, none, s.gen.bindings.set p none, none⟩ ∧
      (s.resetStreamPart p).table = s.table.map Entry.afterDrain ∧
      (s.resetStreamPart p).store =
        { s.store with freeList := insertExtents (extentsWhere Entry.isRetiring s.table) s.store.freeList } := by
  have hend := State.rebind_of_last (s := s.closeIdle p) (b := none) (by simp) h
  simp [State.resetStreamPart, hend, State.drainEnd_effect, Entry.afterDrain_eq]

/-- Any other port is unbound alone (R89). -/
theorem State.resetStreamPart_of_not_last (h : ¬ s.lastOnSuperseded p) :
    (s.resetStreamPart p).gen = { s.gen with bindings := s.gen.bindings.set p none } ∧
      (s.resetStreamPart p).table = s.table ∧ (s.resetStreamPart p).store = s.store := by
  have hstays := State.rebind_of_not_last (s := s.closeIdle p) (b := none) (by simp) h
  simp [State.resetStreamPart, hstays]

/-- The STAGED entries' extents, whether or not the drain ends (R99). -/
theorem State.resetStreamPart_isStaged (s : State) (p : Port) :
    extentsWhere Entry.isStaged (s.resetStreamPart p).table = extentsWhere Entry.isStaged s.table := by
  by_cases hlast : s.lastOnSuperseded p
  · rw [(State.resetStreamPart_of_last hlast).2.1, extentsWhere_isStaged_afterDrain]
  · rw [(State.resetStreamPart_of_not_last hlast).2.1]

/-- A port outside the claim queue owns no session that is handed over, and does not wait afterwards (R113). -/
theorem handedOver_excludes {queue : List Port} (limit : Nat) (h : p ∉ queue) :
    (∀ ses, (handedOver queue limit).session = some ses → ses.owner ≠ p) ∧ p ∉ (handedOver queue limit).claimQueue := by
  cases queue with
  | nil => exact ⟨(fun ses hses => by cases hses), h⟩
  | cons q rest =>
    obtain ⟨hq, hrest⟩ := not_or.mp (List.mem_cons.not.mp h)
    exact ⟨fun ses hses => by cases hses; exact Ne.symm hq, hrest⟩

/-- PORT_RESET takes the port out of the session and of the claim queue (R131). -/
theorem State.resetSessionPart_excludes (h : s.claimsSound) :
    (∀ ses, (s.resetSessionPart p).edit.session = some ses → ses.owner ≠ p) ∧
      p ∉ (s.resetSessionPart p).edit.claimQueue := by
  by_cases howner : s.isOwner p = true
  · obtain ⟨ses, hses, rfl⟩ := State.isOwner_iff.mp howner
    rw [State.resetSessionPart_of_owner howner, State.release_effect]
    exact handedOver_excludes _ (h.notOwner ses hses)
  · have hother : s.isOwner p = false := Bool.eq_false_iff.mpr howner
    rw [State.resetSessionPart_of_other hother]
    exact ⟨State.isOwner_eq_false.mp hother, h.nodup.not_mem_erase⟩

/-- PORT_RESET leaves every byte of the store (R182). -/
theorem State.portReset_store (s : State) (p : Port) :
    (s.portReset p).store = { s.store with freeList := (s.portReset p).store.freeList } := by
  have hstream : ∃ free, (s.resetStreamPart p).store = { s.store with freeList := free } := by
    by_cases hlast : s.lastOnSuperseded p
    · exact ⟨_, (State.resetStreamPart_of_last hlast).2.2⟩
    · exact ⟨_, (State.resetStreamPart_of_not_last hlast).2.2⟩
  have hsession : ∀ u : State, ∃ free, (u.resetSessionPart p).store = { u.store with freeList := free } := fun u => by
    cases howner : u.isOwner p with
    | true => exact ⟨_, by rw [State.resetSessionPart_of_owner howner, State.release_effect]⟩
    | false => exact ⟨_, by rw [State.resetSessionPart_of_other howner]; rfl⟩
  obtain ⟨-, -, hstore, -⟩ := s.portReset_blocks p
  obtain ⟨free, hfree⟩ := hstream
  obtain ⟨free', hfree'⟩ := hsession (s.resetStreamPart p)
  rw [hstore, hfree', hfree]

end

/-- Settles O39: the stream part decides the drain, the session part what the owner's session held, and the other parts touch
the port alone. -/
theorem portResetReturnsOnePort : Obligations.PortResetReturnsOnePort := by
  intro p s harr hclaims
  have hsame : (s.resetStreamPart p).edit = s.edit := (s.resetStreamPart_frame p).1
  have howner : ∀ ses, s.edit.session = some ses → ses.owner = p → (s.resetStreamPart p).isOwner p = true :=
    fun ses hses ho => State.isOwner_iff.mpr ⟨ses, hsame ▸ hses, ho⟩
  have hother : (∀ ses, s.edit.session = some ses → ses.owner ≠ p) → (s.resetStreamPart p).isOwner p = false :=
    fun h => State.isOwner_eq_false.mpr (hsame ▸ h)
  obtain ⟨hexcludes, hqueue⟩ := State.resetSessionPart_excludes (p := p) (hclaims.of_edit hsame)
  have hstaged := s.resetStreamPart_isStaged p
  have hcurrent : (s.resetStreamPart p).gen.current = s.gen.current := (State.rebind_gen _ _ _).1
  obtain ⟨hxmc, htable, hstore, hgen, hedit, hnotices, hlinks⟩ := s.portReset_blocks p
  obtain ⟨hfaults, hlastFault, hpointer, hloader⟩ := s.abandonBoth_record p
  refine ⟨_, _, (s.resetStreamPart p).table, (s.resetStreamPart p).store.freeList, exec_portReset harr, rfl, ?_⟩
  simp only [State.respond_frame, hxmc, htable, hgen, hedit, hnotices]
  refine ⟨State.ext_fields (s.portReset_streams p) hxmc htable (s.portReset_store p) hgen hedit (by simp) hnotices ?_
      (by simp) (by simp), fun k => ⟨?_, fun l => ?_⟩, PerPort.get_set_same _ _ _, fun q hq k => ?_, hloader,
    s.abandonBoth_inFlight p, hfaults, hlastFault, hpointer, fun hlast => ?_, fun hlast => ?_, fun ses hses ho => ?_,
    fun hses => ?_, hexcludes, hqueue⟩
  · rw [State.respond_links, State.linksAnswering, hlinks, PerPort.get_set_same, PerPort.set_set]
    rfl
  · simp [State.abandonBoth_slotRequest]
  · simp [State.abandonBoth_servesSlot]
  · simp [State.abandonBoth_slotRequest, hq]
  · obtain ⟨hgen, htable, hstore⟩ := State.resetStreamPart_of_last hlast
    rw [hstore]
    exact ⟨hgen, htable, rfl, freeTotal_insertExtents _ _⟩
  · obtain ⟨hgen, htable, hstore⟩ := State.resetStreamPart_of_not_last hlast
    exact ⟨hgen, htable, congrArg Store.freeList hstore⟩
  · rw [hstore, State.resetSessionPart_of_owner (howner ses hses ho), State.release_effect]
    simp only [hstaged, hcurrent, State.resetStreamPart_frame, true_and]
    exact ⟨freeTotal_insertExtents _ _, fun q hq => by simp [hq]⟩
  · rw [hstore, State.resetSessionPart_of_other (hother hses)]
    simp +contextual [State.leaveQueue]

end Sys2Proof.Machine

/-! # The span of a COMMITTED notice (R95, R185) -/

namespace Sys2Proof.Machine

-- One theorem after another, as in the tests: in parallel they would only hold threads that wait for the kernel.
set_option Elab.async false

section
variable {t : List Entry} {c n x line : Nat} {sup sup' : Option Nat} {bound : Bool} {p : Port} {v : Settings}
  {e : Entry} {f : EntryFields}

/-! ## The entry that answers a line -/

/-- The fields an entry answers line `x` with: it is visible and covers the line (R16). -/
def Entry.answer? (c : Nat) (sup : Option Nat) (g : Nat) (p : Port) (x : Nat) (e : Entry) : Option EntryFields :=
  (e.visible? c sup g p).filter (·.covers x)

/-- The lookup takes the first entry that answers the line (R16, log entry 15). -/
theorem lookupFrom_cons {i g : Nat} : lookupFrom i c sup g p x (e :: t) =
    (e.answer? c sup g p x).elim (lookupFrom (i + 1) c sup g p x t)
      (fun f => some (i, f.storeLine + (x - f.matchLine))) := by
  simp only [lookupFrom, Entry.answer?]
  cases e.visible? c sup g p with
  | none => rfl
  | some f => cases hcovers : f.covers x <;> simp [Option.filter, hcovers]

/-- A change of entries after which each one answers the line as before keeps the line's lookup. -/
theorem lookup_map_congr {φ : Entry → Entry} {c' g g' : Nat}
    (h : ∀ e ∈ t, (φ e).answer? c' sup' g' p x = e.answer? c sup g p x) :
    lookup (t.map φ) c' sup' g' p x = lookup t c sup g p x := by
  unfold lookup
  generalize 0 = i
  induction t generalizing i with
  | nil => rfl
  | cons e t ih =>
    obtain ⟨hhead, htail⟩ := List.forall_mem_cons.mp h
    rw [List.map_cons, lookupFrom_cons, lookupFrom_cons, hhead, ih htail]

/-! ## What the commit step changes for a line -/

/-- An entry answers a line under N as it did under the generation superseded, unless the commit step changes it, the port is
in its scope and it covers the line (R11, R14). -/
theorem Entry.answer?_commit (h : ∀ f, e.changed? = some f → inScope f.scope p = true → f.covers x = false) :
    (e.commit c n bound).answer? n sup' n p x = e.answer? c sup c p x := by
  cases e with
  | free => rfl
  | staged f m => simpa [Entry.commit, Entry.answer?, Entry.visible?, Option.filter_eq_none_iff] using h f rfl
  | live f born mark =>
    cases mark with
    | false => simp [Entry.commit, Entry.answer?, Entry.visible?]
    | true =>
      have hgone : (Entry.live f born true).answer? c sup c p x = none := by
        simpa [Entry.answer?, Entry.visible?, Option.filter_eq_none_iff] using h f rfl
      rw [hgone]
      cases bound <;> simp [Entry.commit, Entry.answer?, Entry.visible?]
  | retiring f born => simp [Entry.commit, Entry.answer?, Entry.visible?]

/-- A line whose lookup a commit step changes is covered by a changed entry with the port in its scope (R185). -/
theorem State.exists_changed_of_lookup_commitStep_ne {s : State}
    (h : lookup s.commitStep.table s.commitStep.gen.current s.commitStep.gen.superseded s.commitStep.gen.current p x
      ≠ lookup s.table s.gen.current s.gen.superseded s.gen.current p x) :
    ∃ e ∈ s.table, ∃ f, e.changed? = some f ∧ inScope f.scope p = true ∧ f.covers x = true := by
  by_contra hnone
  have hcurrent : s.commitStep.gen.current = nextGeneration s.gen.current := by
    rw [State.commitStep_gen]
    split <;> rfl
  rw [hcurrent, State.commitStep_table] at h
  refine h (lookup_map_congr fun e he => Entry.answer?_commit fun f hchanged hscope => ?_)
  exact Bool.eq_false_iff.mpr fun hcovers => hnone ⟨e, he, f, hchanged, hscope, hcovers⟩

/-! ## The clipped range that holds the line -/

/-- A range that covers a line of the view keeps that line when it is clipped (R95 steps 2 and 3). -/
theorem clipToView_of_covers (hline : line < v.viewLines) (hcovers : f.covers (v.physical line) = true) :
    ∃ r, clipToView v f = some r ∧ r.1 ≤ line ∧ line ≤ r.2 := by
  obtain ⟨hlow, hhigh⟩ := EntryFields.covers_iff.mp hcovers
  unfold Settings.physical at hlow hhigh
  have hmeet : max f.matchLine v.firstLine < min (f.matchLine + f.length) (v.firstLine + v.viewLines) := by omega
  exact ⟨_, if_pos hmeet, by dsimp only; omega, by dsimp only; omega⟩

/-- The clipped ranges come from the changed entries with the port in their scope (R95). -/
theorem mem_changedRanges {r : Nat × Nat} : r ∈ changedRanges t p v ↔
    ∃ e ∈ t, ∃ f, e.changed? = some f ∧ inScope f.scope p = true ∧ clipToView v f = some r := by
  simp only [changedRanges, List.mem_filterMap, List.mem_filter]
  constructor
  · rintro ⟨f, ⟨⟨e, he, hchanged⟩, hscope⟩, hclip⟩
    exact ⟨e, he, f, hchanged, hscope, hclip⟩
  · rintro ⟨e, he, f, hchanged, hscope, hclip⟩
    exact ⟨f, ⟨⟨e, he, hchanged⟩, hscope⟩, hclip⟩

end

/-- Settles O21: a changed entry covers the line, so one of its port's clipped ranges holds it, and the notice spans them
all. -/
theorem changedLinesLieInCommittedSpan : Obligations.ChangedLinesLieInCommittedSpan := by
  intro s p line _ hline hne
  obtain ⟨e, he, f, hchanged, hscope, hcovers⟩ := State.exists_changed_of_lookup_commitStep_ne hne
  obtain ⟨r, hclip, hlow, hhigh⟩ := clipToView_of_covers hline hcovers
  have hr : r ∈ changedRanges s.table p (s.streams.get p).settings :=
    mem_changedRanges.mpr ⟨e, he, f, hchanged, hscope, hclip⟩
  obtain ⟨first, last, -, -, hspan, hnotice⟩ := committedNotice_of_ne_nil (List.ne_nil_of_mem hr)
  obtain ⟨hfirst, hlast⟩ := hspan r hr
  exact ⟨first, last, hnotice, hfirst.trans hlow, hhigh.trans hlast⟩

end Sys2Proof.Machine

/-! # The step and the queue (file 95) -/

namespace Sys2Proof.Machine

/-- Settles O1: a queue with a front command takes the step's second branch, and `putPending` sets the queue and nothing else. -/
theorem stepTakesFrontCommand : Obligations.StepTakesFrontCommand := by
  intro c s rest hq
  have hstep : step s = exec c (s.putPending rest) := by
    unfold step
    rw [hq]
  have hput : s.putPending rest = { s with pending := rest } := rfl
  rw [hstep, hput]

end Sys2Proof.Machine
